-- ==== Sys2Proof/Word.lean ====
section
/-! DEFINITION. The word types of the vector unit and the two views of a vector register element. -/

namespace Sys2Proof

/-- 8 bits. -/
abbrev Byte := BitVec 8
/-- A word, 16 bits (R17). -/
abbrev Word := BitVec 16
/-- A longword, 32 bits (R17). -/
abbrev Longword := BitVec 32
/-- A quadword, 64 bits (R17). -/
abbrev Quadword := BitVec 64
/-- A memory address: `ADDR_BITS` = 32 (R8). Sums of addresses wrap (R53). -/
abbrev Address := BitVec 32
/-- The 16-bit vector control word (R85). -/
abbrev Cntrl := BitVec 16

/-- `NVREG`: the number of vector registers (R8, R21). -/
abbrev NVREG : Nat := 16
/-- `NELEM`: the number of elements in a vector register (R8, R23). DESIGN CHOICE of the spec (D10), log 11. -/
abbrev NELEM : Nat := 64

/-- A vector register number, V0 to V15; every 4-bit value names one (R21). -/
abbrev VReg := Fin NVREG
/-- An element number, 0 to 63 (R23). -/
abbrev ElemIx := Fin NELEM

/-- A scalar general register, R0 to R15; R15 is the program counter (R32, general knowledge; log 35). -/
abbrev GReg := Fin 16

/-- One 64-bit element of a vector register (R22), held as its bits 63:32 and 31:0 (log 44): most instructions
define only the low half (R24). -/
structure Element where
  /-- bits 63:32 -/
  hi : Longword
  /-- bits 31:0: where a longword or F_floating datum lies (R48) -/
  lo : Longword
  deriving DecidableEq, Repr

/-- The whole element, bits 63:0: where a quadword, D_floating or G_floating datum lies (R48). -/
def Element.q (e : Element) : Quadword := e.hi ++ e.lo

/-- The element whose bits 63:0 are `x`. -/
def Element.ofQ (x : Quadword) : Element := ⟨x.extractLsb' 32 32, x.extractLsb' 0 32⟩

end Sys2Proof
end

