-- ==== Sys2Proof/Config.lean ====
section
/-! DEFINITION. What a run of the machine is configured with and the values the spec leaves free: the data types, the type
of the floating-point record `FP` (R41), and the drawn values `draw_32` (R11). -/

namespace Sys2Proof

/-- The three floating-point types (R40). -/
inductive FType where
  | f | d | g
  deriving DecidableEq, Repr

/-- The four types of data an element holds (R39, R40): longword, F_floating, D_floating, G_floating. -/
inductive DType where
  | l | f | d | g
  deriving DecidableEq, Repr

/-- The width of a datum: 32 bits for L and F, 64 for D and G (R41, R351). -/
abbrev DType.width : DType → Nat
  | .l => 32
  | .f => 32
  | .d => 64
  | .g => 64

/-- A floating-point type as a data type. -/
abbrev FType.dtype : FType → DType
  | .f => .f
  | .d => .d
  | .g => .g

/-- The four floating-point operations (R41). -/
inductive FOp where
  | add | sub | mul | div
  deriving DecidableEq, Repr

/-- The answer of `FP.add`, `sub`, `mul` or `div` (R41). -/
inductive FPResult (w : Nat) where
  | value (v : BitVec w)
  | overflow
  | underflow
  | reservedOperand
  | divideByZero
  deriving DecidableEq, Repr

/-- The answer of `FP.cmp`, of the first operand against the second (R41). -/
inductive FPOrder where
  | less | equal | greater
  | reservedOperand
  deriving DecidableEq, Repr

/-- The thirteen conversions of VVCVT (R90). -/
inductive CvtFunc where
  | cvtlf | cvtld | cvtlg
  | cvtfl | cvtrfl | cvtfd | cvtfg
  | cvtdl | cvtdf | cvtrdl
  | cvtgl | cvtgf | cvtrgl
  deriving DecidableEq, Repr

/-- The source type of a conversion (R352 to R364). -/
abbrev CvtFunc.src : CvtFunc → DType
  | .cvtlf | .cvtld | .cvtlg => .l
  | .cvtfl | .cvtrfl | .cvtfd | .cvtfg => .f
  | .cvtdl | .cvtdf | .cvtrdl => .d
  | .cvtgl | .cvtgf | .cvtrgl => .g

/-- The destination type of a conversion (R352 to R364). -/
abbrev CvtFunc.dst : CvtFunc → DType
  | .cvtfl | .cvtrfl | .cvtdl | .cvtrdl | .cvtgl | .cvtrgl => .l
  | .cvtlf | .cvtdf | .cvtgf => .f
  | .cvtld | .cvtfd => .d
  | .cvtlg | .cvtfg => .g

/-- The answer of `FP.cvt` (R41); `integerOverflow v` carries the value to store when the condition is not enabled. -/
inductive CvtResult (w : Nat) where
  | value (v : BitVec w)
  | overflow
  | underflow
  | reservedOperand
  | integerOverflow (v : BitVec w)
  deriving DecidableEq, Repr

/-- The configuration record `FP` of R41: total functions of their arguments alone. The instruction rules are written
against it; the machine plugs in the instance of R42 to R46 (`Sys2Proof.Machine.vaxFP`, log 17). -/
structure FP where
  /-- `FP.add`, `FP.sub`, `FP.mul`, `FP.div` of a type, on the two operands in order. -/
  op : FOp → (t : FType) → BitVec t.dtype.width → BitVec t.dtype.width → FPResult t.dtype.width
  /-- `FP.cmp` of a type: how the first operand stands to the second. -/
  cmp : (t : FType) → BitVec t.dtype.width → BitVec t.dtype.width → FPOrder
  /-- `FP.cvt` of a conversion. -/
  cvt : (f : CvtFunc) → BitVec f.src.width → CvtResult f.dst.width
  /-- `FP.zero` of a type, stored when underflow occurs and is not enabled. For a longword destination, which cannot
  underflow in the intended instance, the integer 0. -/
  zero : (t : DType) → BitVec t.width

/-- The n-th drawn 32-bit value, `draw_32` of R11: a free value about which nothing can be proved (log 7). -/
opaque Config.draw32 : Nat → Longword

end Sys2Proof
end

