-- ==== Sys2Proof/Syntax.lean ====
section
/-! DEFINITION. The syntax: one constructor of `Instr` per row of spec/opcode_table.json. The 63 opcode rows carry the
operand values of the instruction stream (R7, R82), the control word whole. The 75 assembler-mnemonic rows (R117) carry
their assembler operands and qualifiers (R112, R115, R116). -/

namespace Sys2Proof

/-- Where the `dst.wl` result of MFVP goes: "a scalar register or memory location of the scalar processor" (R142).
Of a result in R15, the program counter, nothing remains: on completion the pc is set past the instruction (R33; log 38). -/
inductive Dest where
  | reg (n : GReg)
  | mem (a : Address)
  deriving DecidableEq, Repr

/-- The qualifiers 0 and 1 of masked operation (R112): none, `/0`, `/1`. -/
inductive MaskQual where
  | all | on0 | on1
  deriving DecidableEq, Repr

/-- Every row of the opcode table. -/
inductive Instr where
  /-- MFVP: opcode 31FD, format RW (R142) -/
  | mfvp (regnum : Word) (dst : Dest)
  /-- VLDL: opcode 34FD, format CAL (R303) -/
  | vldl (c : Cntrl) (base : Address) (stride : Longword)
  /-- VGATHL: opcode 35FD, format CA (R301) -/
  | vgathl (c : Cntrl) (base : Address)
  /-- VLDQ: opcode 36FD, format CAL (R304) -/
  | vldq (c : Cntrl) (base : Address) (stride : Longword)
  /-- VGATHQ: opcode 37FD, format CA (R302) -/
  | vgathq (c : Cntrl) (base : Address)
  /-- VVADDL: opcode 80FD, format C (R222) -/
  | vvaddl (c : Cntrl)
  /-- VSADDL: opcode 81FD, format CL (R223) -/
  | vsaddl (c : Cntrl) (x : Longword)
  /-- VVADDG: opcode 82FD, format C (R176) -/
  | vvaddg (c : Cntrl)
  /-- VSADDG: opcode 83FD, format CQ (R177) -/
  | vsaddg (c : Cntrl) (x : Quadword)
  /-- VVADDF: opcode 84FD, format C (R172) -/
  | vvaddf (c : Cntrl)
  /-- VSADDF: opcode 85FD, format CL (R173) -/
  | vsaddf (c : Cntrl) (x : Longword)
  /-- VVADDD: opcode 86FD, format C (R174) -/
  | vvaddd (c : Cntrl)
  /-- VSADDD: opcode 87FD, format CQ (R175) -/
  | vsaddd (c : Cntrl) (x : Quadword)
  /-- VVSUBL: opcode 88FD, format C (R226) -/
  | vvsubl (c : Cntrl)
  /-- VSSUBL: opcode 89FD, format CL (R227) -/
  | vssubl (c : Cntrl) (x : Longword)
  /-- VVSUBG: opcode 8AFD, format C (R204) -/
  | vvsubg (c : Cntrl)
  /-- VSSUBG: opcode 8BFD, format CQ (R205) -/
  | vssubg (c : Cntrl) (x : Quadword)
  /-- VVSUBF: opcode 8CFD, format C (R200) -/
  | vvsubf (c : Cntrl)
  /-- VSSUBF: opcode 8DFD, format CL (R201) -/
  | vssubf (c : Cntrl) (x : Longword)
  /-- VVSUBD: opcode 8EFD, format C (R202) -/
  | vvsubd (c : Cntrl)
  /-- VSSUBD: opcode 8FFD, format CQ (R203) -/
  | vssubd (c : Cntrl) (x : Quadword)
  /-- VSTL: opcode 9CFD, format CAL (R307) -/
  | vstl (c : Cntrl) (base : Address) (stride : Longword)
  /-- VSCATL: opcode 9DFD, format CA (R305) -/
  | vscatl (c : Cntrl) (base : Address)
  /-- VSTQ: opcode 9EFD, format CAL (R308) -/
  | vstq (c : Cntrl) (base : Address) (stride : Longword)
  /-- VSCATQ: opcode 9FFD, format CA (R306) -/
  | vscatq (c : Cntrl) (base : Address)
  /-- VVMULL: opcode A0FD, format C (R224) -/
  | vvmull (c : Cntrl)
  /-- VSMULL: opcode A1FD, format CL (R225) -/
  | vsmull (c : Cntrl) (x : Longword)
  /-- VVMULG: opcode A2FD, format C (R194) -/
  | vvmulg (c : Cntrl)
  /-- VSMULG: opcode A3FD, format CQ (R195) -/
  | vsmulg (c : Cntrl) (x : Quadword)
  /-- VVMULF: opcode A4FD, format C (R190) -/
  | vvmulf (c : Cntrl)
  /-- VSMULF: opcode A5FD, format CL (R191) -/
  | vsmulf (c : Cntrl) (x : Longword)
  /-- VVMULD: opcode A6FD, format C (R192) -/
  | vvmuld (c : Cntrl)
  /-- VSMULD: opcode A7FD, format CQ (R193) -/
  | vsmuld (c : Cntrl) (x : Quadword)
  /-- VSYNC: opcode A8FD, format R (R160) -/
  | vsync (regnum : Word)
  /-- MTVP: opcode A9FD, format RL (R150) -/
  | mtvp (regnum : Word) (src : Longword)
  /-- VVDIVG: opcode AAFD, format C (R184) -/
  | vvdivg (c : Cntrl)
  /-- VSDIVG: opcode ABFD, format CQ (R185) -/
  | vsdivg (c : Cntrl) (x : Quadword)
  /-- VVDIVF: opcode ACFD, format C (R180) -/
  | vvdivf (c : Cntrl)
  /-- VSDIVF: opcode ADFD, format CL (R181) -/
  | vsdivf (c : Cntrl) (x : Longword)
  /-- VVDIVD: opcode AEFD, format C (R182) -/
  | vvdivd (c : Cntrl)
  /-- VSDIVD: opcode AFFD, format CQ (R183) -/
  | vsdivd (c : Cntrl) (x : Quadword)
  /-- VVCMPL: opcode C0FD, format C (R291) -/
  | vvcmpl (c : Cntrl)
  /-- VSCMPL: opcode C1FD, format CL (R292) -/
  | vscmpl (c : Cntrl) (x : Longword)
  /-- VVCMPG: opcode C2FD, format C (R277) -/
  | vvcmpg (c : Cntrl)
  /-- VSCMPG: opcode C3FD, format CQ (R278) -/
  | vscmpg (c : Cntrl) (x : Quadword)
  /-- VVCMPF: opcode C4FD, format C (R273) -/
  | vvcmpf (c : Cntrl)
  /-- VSCMPF: opcode C5FD, format CL (R274) -/
  | vscmpf (c : Cntrl) (x : Longword)
  /-- VVCMPD: opcode C6FD, format C (R275) -/
  | vvcmpd (c : Cntrl)
  /-- VSCMPD: opcode C7FD, format CQ (R276) -/
  | vscmpd (c : Cntrl) (x : Quadword)
  /-- VVBISL: opcode C8FD, format C (R241) -/
  | vvbisl (c : Cntrl)
  /-- VSBISL: opcode C9FD, format CL (R244) -/
  | vsbisl (c : Cntrl) (x : Longword)
  /-- VVBICL: opcode CCFD, format C (R243) -/
  | vvbicl (c : Cntrl)
  /-- VSBICL: opcode CDFD, format CL (R246) -/
  | vsbicl (c : Cntrl) (x : Longword)
  /-- VVSRLL: opcode E0FD, format C (R263) -/
  | vvsrll (c : Cntrl)
  /-- VSSRLL: opcode E1FD, format CL (R265) -/
  | vssrll (c : Cntrl) (x : Longword)
  /-- VVSLLL: opcode E4FD, format C (R264) -/
  | vvslll (c : Cntrl)
  /-- VSSLLL: opcode E5FD, format CL (R266) -/
  | vsslll (c : Cntrl) (x : Longword)
  /-- VVXORL: opcode E8FD, format C (R242) -/
  | vvxorl (c : Cntrl)
  /-- VSXORL: opcode E9FD, format CL (R245) -/
  | vsxorl (c : Cntrl) (x : Longword)
  /-- VVCVT: opcode ECFD, format C (R351) -/
  | vvcvt (c : Cntrl)
  /-- IOTA: opcode EDFD, format CL (R131) -/
  | iota (c : Cntrl) (stride : Longword)
  /-- VVMERGE: opcode EEFD, format C (R341) -/
  | vvmerge (c : Cntrl)
  /-- VSMERGE: opcode EFFD, format CQ (R342) -/
  | vsmerge (c : Cntrl) (x : Quadword)
  /-- VVGTRF: assembler mnemonic of VVCMPF (R273) -/
  | vvgtrf (q : MaskQual) (va vb : VReg)
  /-- VVEQLF: assembler mnemonic of VVCMPF (R273) -/
  | vveqlf (q : MaskQual) (va vb : VReg)
  /-- VVLSSF: assembler mnemonic of VVCMPF (R273) -/
  | vvlssf (q : MaskQual) (va vb : VReg)
  /-- VVLEQF: assembler mnemonic of VVCMPF (R273) -/
  | vvleqf (q : MaskQual) (va vb : VReg)
  /-- VVNEQF: assembler mnemonic of VVCMPF (R273) -/
  | vvneqf (q : MaskQual) (va vb : VReg)
  /-- VVGEQF: assembler mnemonic of VVCMPF (R273) -/
  | vvgeqf (q : MaskQual) (va vb : VReg)
  /-- VSGTRF: assembler mnemonic of VSCMPF (R274) -/
  | vsgtrf (q : MaskQual) (src : Longword) (vb : VReg)
  /-- VSEQLF: assembler mnemonic of VSCMPF (R274) -/
  | vseqlf (q : MaskQual) (src : Longword) (vb : VReg)
  /-- VSLSSF: assembler mnemonic of VSCMPF (R274) -/
  | vslssf (q : MaskQual) (src : Longword) (vb : VReg)
  /-- VSLEQF: assembler mnemonic of VSCMPF (R274) -/
  | vsleqf (q : MaskQual) (src : Longword) (vb : VReg)
  /-- VSNEQF: assembler mnemonic of VSCMPF (R274) -/
  | vsneqf (q : MaskQual) (src : Longword) (vb : VReg)
  /-- VSGEQF: assembler mnemonic of VSCMPF (R274) -/
  | vsgeqf (q : MaskQual) (src : Longword) (vb : VReg)
  /-- VVGTRD: assembler mnemonic of VVCMPD (R275) -/
  | vvgtrd (q : MaskQual) (va vb : VReg)
  /-- VVEQLD: assembler mnemonic of VVCMPD (R275) -/
  | vveqld (q : MaskQual) (va vb : VReg)
  /-- VVLSSD: assembler mnemonic of VVCMPD (R275) -/
  | vvlssd (q : MaskQual) (va vb : VReg)
  /-- VVLEQD: assembler mnemonic of VVCMPD (R275) -/
  | vvleqd (q : MaskQual) (va vb : VReg)
  /-- VVNEQD: assembler mnemonic of VVCMPD (R275) -/
  | vvneqd (q : MaskQual) (va vb : VReg)
  /-- VVGEQD: assembler mnemonic of VVCMPD (R275) -/
  | vvgeqd (q : MaskQual) (va vb : VReg)
  /-- VSGTRD: assembler mnemonic of VSCMPD (R276) -/
  | vsgtrd (q : MaskQual) (src : Quadword) (vb : VReg)
  /-- VSEQLD: assembler mnemonic of VSCMPD (R276) -/
  | vseqld (q : MaskQual) (src : Quadword) (vb : VReg)
  /-- VSLSSD: assembler mnemonic of VSCMPD (R276) -/
  | vslssd (q : MaskQual) (src : Quadword) (vb : VReg)
  /-- VSLEQD: assembler mnemonic of VSCMPD (R276) -/
  | vsleqd (q : MaskQual) (src : Quadword) (vb : VReg)
  /-- VSNEQD: assembler mnemonic of VSCMPD (R276) -/
  | vsneqd (q : MaskQual) (src : Quadword) (vb : VReg)
  /-- VSGEQD: assembler mnemonic of VSCMPD (R276) -/
  | vsgeqd (q : MaskQual) (src : Quadword) (vb : VReg)
  /-- VVGTRG: assembler mnemonic of VVCMPG (R277) -/
  | vvgtrg (q : MaskQual) (va vb : VReg)
  /-- VVEQLG: assembler mnemonic of VVCMPG (R277) -/
  | vveqlg (q : MaskQual) (va vb : VReg)
  /-- VVLSSG: assembler mnemonic of VVCMPG (R277) -/
  | vvlssg (q : MaskQual) (va vb : VReg)
  /-- VVLEQG: assembler mnemonic of VVCMPG (R277) -/
  | vvleqg (q : MaskQual) (va vb : VReg)
  /-- VVNEQG: assembler mnemonic of VVCMPG (R277) -/
  | vvneqg (q : MaskQual) (va vb : VReg)
  /-- VVGEQG: assembler mnemonic of VVCMPG (R277) -/
  | vvgeqg (q : MaskQual) (va vb : VReg)
  /-- VSGTRG: assembler mnemonic of VSCMPG (R278) -/
  | vsgtrg (q : MaskQual) (src : Quadword) (vb : VReg)
  /-- VSEQLG: assembler mnemonic of VSCMPG (R278) -/
  | vseqlg (q : MaskQual) (src : Quadword) (vb : VReg)
  /-- VSLSSG: assembler mnemonic of VSCMPG (R278) -/
  | vslssg (q : MaskQual) (src : Quadword) (vb : VReg)
  /-- VSLEQG: assembler mnemonic of VSCMPG (R278) -/
  | vsleqg (q : MaskQual) (src : Quadword) (vb : VReg)
  /-- VSNEQG: assembler mnemonic of VSCMPG (R278) -/
  | vsneqg (q : MaskQual) (src : Quadword) (vb : VReg)
  /-- VSGEQG: assembler mnemonic of VSCMPG (R278) -/
  | vsgeqg (q : MaskQual) (src : Quadword) (vb : VReg)
  /-- VVGTRL: assembler mnemonic of VVCMPL (R291) -/
  | vvgtrl (q : MaskQual) (va vb : VReg)
  /-- VVEQLL: assembler mnemonic of VVCMPL (R291) -/
  | vveqll (q : MaskQual) (va vb : VReg)
  /-- VVLSSL: assembler mnemonic of VVCMPL (R291) -/
  | vvlssl (q : MaskQual) (va vb : VReg)
  /-- VVLEQL: assembler mnemonic of VVCMPL (R291) -/
  | vvleql (q : MaskQual) (va vb : VReg)
  /-- VVNEQL: assembler mnemonic of VVCMPL (R291) -/
  | vvneql (q : MaskQual) (va vb : VReg)
  /-- VVGEQL: assembler mnemonic of VVCMPL (R291) -/
  | vvgeql (q : MaskQual) (va vb : VReg)
  /-- VSGTRL: assembler mnemonic of VSCMPL (R292) -/
  | vsgtrl (q : MaskQual) (src : Longword) (vb : VReg)
  /-- VSEQLL: assembler mnemonic of VSCMPL (R292) -/
  | vseqll (q : MaskQual) (src : Longword) (vb : VReg)
  /-- VSLSSL: assembler mnemonic of VSCMPL (R292) -/
  | vslssl (q : MaskQual) (src : Longword) (vb : VReg)
  /-- VSLEQL: assembler mnemonic of VSCMPL (R292) -/
  | vsleql (q : MaskQual) (src : Longword) (vb : VReg)
  /-- VSNEQL: assembler mnemonic of VSCMPL (R292) -/
  | vsneql (q : MaskQual) (src : Longword) (vb : VReg)
  /-- VSGEQL: assembler mnemonic of VSCMPL (R292) -/
  | vsgeql (q : MaskQual) (src : Longword) (vb : VReg)
  /-- VVCVTLF: assembler mnemonic of VVCVT (R352) -/
  | vvcvtlf (u : Bool) (q : MaskQual) (vb vc : VReg)
  /-- VVCVTLD: assembler mnemonic of VVCVT (R353) -/
  | vvcvtld (u : Bool) (q : MaskQual) (vb vc : VReg)
  /-- VVCVTLG: assembler mnemonic of VVCVT (R354) -/
  | vvcvtlg (u : Bool) (q : MaskQual) (vb vc : VReg)
  /-- VVCVTFL: assembler mnemonic of VVCVT (R355) -/
  | vvcvtfl (u : Bool) (q : MaskQual) (vb vc : VReg)
  /-- VVCVTRFL: assembler mnemonic of VVCVT (R356) -/
  | vvcvtrfl (u : Bool) (q : MaskQual) (vb vc : VReg)
  /-- VVCVTFD: assembler mnemonic of VVCVT (R357) -/
  | vvcvtfd (u : Bool) (q : MaskQual) (vb vc : VReg)
  /-- VVCVTFG: assembler mnemonic of VVCVT (R358) -/
  | vvcvtfg (u : Bool) (q : MaskQual) (vb vc : VReg)
  /-- VVCVTDL: assembler mnemonic of VVCVT (R359) -/
  | vvcvtdl (u : Bool) (q : MaskQual) (vb vc : VReg)
  /-- VVCVTDF: assembler mnemonic of VVCVT (R360) -/
  | vvcvtdf (u : Bool) (q : MaskQual) (vb vc : VReg)
  /-- VVCVTRDL: assembler mnemonic of VVCVT (R361) -/
  | vvcvtrdl (u : Bool) (q : MaskQual) (vb vc : VReg)
  /-- VVCVTGL: assembler mnemonic of VVCVT (R362) -/
  | vvcvtgl (u : Bool) (q : MaskQual) (vb vc : VReg)
  /-- VVCVTGF: assembler mnemonic of VVCVT (R363) -/
  | vvcvtgf (u : Bool) (q : MaskQual) (vb vc : VReg)
  /-- VVCVTRGL: assembler mnemonic of VVCVT (R364) -/
  | vvcvtrgl (u : Bool) (q : MaskQual) (vb vc : VReg)
  /-- MFVCR: assembler mnemonic of MFVP (R143) -/
  | mfvcr (dst : Dest)
  /-- MFVLR: assembler mnemonic of MFVP (R144) -/
  | mfvlr (dst : Dest)
  /-- MFVMRLO: assembler mnemonic of MFVP (R145) -/
  | mfvmrlo (dst : Dest)
  /-- MFVMRHI: assembler mnemonic of MFVP (R146) -/
  | mfvmrhi (dst : Dest)
  /-- SYNCH: assembler mnemonic of MFVP (R147) -/
  | synch (dst : Dest)
  /-- MSYNCH: assembler mnemonic of MFVP (R148) -/
  | msynch (dst : Dest)
  /-- MTVCR: assembler mnemonic of MTVP (R151) -/
  | mtvcr (src : Longword)
  /-- MTVLR: assembler mnemonic of MTVP (R152) -/
  | mtvlr (src : Longword)
  /-- MTVMRLO: assembler mnemonic of MTVP (R153) -/
  | mtvmrlo (src : Longword)
  /-- MTVMRHI: assembler mnemonic of MTVP (R154) -/
  | mtvmrhi (src : Longword)
  /-- VSYNCH: assembler mnemonic of VSYNC (R160) -/
  | vsynch
  /-- VSMERGEF: assembler mnemonic of VSMERGE (R342) -/
  | vsmergef (mtf : Bool) (src : Quadword) (vb vc : VReg)
  /-- VSMERGED: assembler mnemonic of VSMERGE (R342) -/
  | vsmerged (mtf : Bool) (src : Quadword) (vb vc : VReg)
  /-- VSMERGEG: assembler mnemonic of VSMERGE (R342) -/
  | vsmergeg (mtf : Bool) (src : Quadword) (vb vc : VReg)
  deriving DecidableEq, Repr

end Sys2Proof
end

