-- ==== Sys2Proof/Machine/Cntrl.lean ====
section
/-! DEFINITION. The vector control word, field by field (R85, R86), the compare and convert function codes (R89, R90), the
register numbers (R31), and the control words that the assembler builds (R111 to R114, R116). -/

namespace Sys2Proof

/-- MOE, masked operation enable: `cntrl<15>` (R85). -/
def Cntrl.moe (c : Cntrl) : Bool := c.getLsbD 15
/-- MTF, the mask bit value that selects an element: `cntrl<14>` (R85). -/
def Cntrl.mtf (c : Cntrl) : Bool := c.getLsbD 14
/-- EXC, exception enable of arithmetic and convert instructions: `cntrl<13>` (R85). -/
def Cntrl.exc (c : Cntrl) : Bool := c.getLsbD 13
/-- MI, modify intent of VLD and VGATH: `cntrl<13>` (R85, R114). -/
def Cntrl.mi (c : Cntrl) : Bool := c.getLsbD 13
/-- Va, the first source: `cntrl<11:8>` (R85). -/
def Cntrl.va (c : Cntrl) : VReg := (c.extractLsb' 8 4).toFin
/-- Vb, the second source: `cntrl<7:4>` (R85). -/
def Cntrl.vb (c : Cntrl) : VReg := (c.extractLsb' 4 4).toFin
/-- Vc, the destination (the source of VST and VSCAT): `cntrl<3:0>` (R85). -/
def Cntrl.vc (c : Cntrl) : VReg := (c.extractLsb' 0 4).toFin

/-- Every field of `c` under the mask is 0 (R88). -/
def Cntrl.zeroUnder (mask c : Cntrl) : Bool := c &&& mask == 0

/-- Fields drawn as 0 in vector-vector forms with EXC, and in VVCVT (R86): bit 12. -/
def mbzVV : Cntrl := 0x1000
/-- Fields drawn as 0 in vector-scalar forms with EXC (R86, R87): bits 12 and 11:8. -/
def mbzVS : Cntrl := 0x1F00
/-- Fields drawn as 0 in vector-vector forms without EXC (R86): bits 13 and 12. -/
def mbzVVNoExc : Cntrl := 0x3000
/-- Fields drawn as 0 in vector-scalar forms without EXC (R86, R87): bits 13, 12 and 11:8. -/
def mbzVSNoExc : Cntrl := 0x3F00
/-- Fields drawn as 0 in VVMERGE (R86): bits 15, 13 and 12. -/
def mbzVVMerge : Cntrl := 0xB000
/-- Fields drawn as 0 in VSMERGE (R86): bits 15, 13, 12 and 11:8. -/
def mbzVSMerge : Cntrl := 0xBF00
/-- Fields drawn as 0 in IOTA (R86): bits 15 and 13:4. -/
def mbzIota : Cntrl := 0xBFF0
/-- Fields drawn as 0 in VLDL and VLDQ (R86): bits 12 and 11:4. -/
def mbzLoad : Cntrl := 0x1FF0
/-- Fields drawn as 0 in VGATHL and VGATHQ (R86): bits 12 and 11:8. -/
def mbzGather : Cntrl := 0x1F00
/-- Fields drawn as 0 in VSTL and VSTQ (R86): bits 13:12 and 11:4. -/
def mbzStore : Cntrl := 0x3FF0
/-- Fields drawn as 0 in VSCATL and VSCATQ (R86): bits 13:12 and 11:8. -/
def mbzScatter : Cntrl := 0x3F00

/-- The six relations of the compare instructions (R271). -/
inductive Rel where
  | gtr | eql | lss | leq | neq | geq
  deriving DecidableEq, Repr

/-- The compare function code of a relation, `cntrl<3:0>` with bit 3 zero (R89). -/
def Rel.code : Rel → BitVec 4
  | .gtr => 0
  | .eql => 1
  | .lss => 2
  | .leq => 4
  | .neq => 5
  | .geq => 6

/-- The relation that `cntrl<2:0>` names (R89, R271); codes 3 and 7 are Reserved. -/
def Rel.ofCode : BitVec 3 → Option Rel
  | 0#3 => some .gtr
  | 1#3 => some .eql
  | 2#3 => some .lss
  | 4#3 => some .leq
  | 5#3 => some .neq
  | 6#3 => some .geq
  | _ => none

/-- `cntrl<3>` of a compare, which should be zero (R280). -/
def Cntrl.cmpBit3 (c : Cntrl) : Bool := c.getLsbD 3
/-- The relation of a compare, from `cntrl<2:0>` (R271). -/
def Cntrl.rel (c : Cntrl) : Option Rel := Rel.ofCode (c.extractLsb' 0 3)

/-- The code of a conversion, `cntrl<11:8>` (R90). -/
def CvtFunc.code : CvtFunc → BitVec 4
  | .cvtlf => 1
  | .cvtld => 2
  | .cvtlg => 3
  | .cvtfl => 4
  | .cvtrfl => 5
  | .cvtfd => 6
  | .cvtfg => 7
  | .cvtdl => 8
  | .cvtdf => 9
  | .cvtrdl => 10
  | .cvtgl => 12
  | .cvtgf => 13
  | .cvtrgl => 15

/-- The conversion that `cntrl<11:8>` names (R90); codes 0000, 1011 and 1110 are Reserved (R365). -/
def CvtFunc.ofCode : BitVec 4 → Option CvtFunc
  | 1#4 => some .cvtlf
  | 2#4 => some .cvtld
  | 3#4 => some .cvtlg
  | 4#4 => some .cvtfl
  | 5#4 => some .cvtrfl
  | 6#4 => some .cvtfd
  | 7#4 => some .cvtfg
  | 8#4 => some .cvtdl
  | 9#4 => some .cvtdf
  | 10#4 => some .cvtrdl
  | 12#4 => some .cvtgl
  | 13#4 => some .cvtgf
  | 15#4 => some .cvtrgl
  | _ => none

/-- The conversion of VVCVT, from `cntrl<11:8>` (R90). -/
def Cntrl.cvtFunc (c : Cntrl) : Option CvtFunc := CvtFunc.ofCode (c.extractLsb' 8 4)

/-- MOE as the masked-operation qualifier sets it (R112). -/
def MaskQual.moe : MaskQual → Bool
  | .all => false
  | .on0 => true
  | .on1 => true

/-- MTF as the masked-operation qualifier sets it (R112): 0 when there is no digit. -/
def MaskQual.mtf : MaskQual → Bool
  | .all => false
  | .on0 => false
  | .on1 => true

/-- A control word from its fields: bits 15, 14, 13, then 11:8, 7:4 and 3:0, with bit 12 zero (R85). -/
def Cntrl.make (b15 b14 b13 : Bool) (f11 f7 f3 : BitVec 4) : Cntrl :=
  BitVec.ofBool b15 ++ BitVec.ofBool b14 ++ BitVec.ofBool b13 ++ 0#1 ++ f11 ++ f7 ++ f3

/-- A vector register number as a control word field (R21). -/
def VReg.field (r : VReg) : BitVec 4 := BitVec.ofFin r

/-- Control word of `VV<op>` with qualifier letter `exc` and digit `q` (R111, R112, R116). -/
def Cntrl.vv (exc : Bool) (q : MaskQual) (va vb vc : VReg) : Cntrl :=
  Cntrl.make q.moe q.mtf exc va.field vb.field vc.field

/-- Control word of `VS<op>`, and of the gathers and scatters: bits 11:8 zero (R111, R112, R114, R116). -/
def Cntrl.vs (exc : Bool) (q : MaskQual) (vb vc : VReg) : Cntrl :=
  Cntrl.make q.moe q.mtf exc 0 vb.field vc.field

/-- Control word of a strided load or store: bits 11:4 zero (R114, R116). -/
def Cntrl.strided (mi : Bool) (q : MaskQual) (vc : VReg) : Cntrl :=
  Cntrl.make q.moe q.mtf mi 0 0 vc.field

/-- Control word of `VV<rel><t>` (R116, R117). -/
def Cntrl.vvCmp (q : MaskQual) (va vb : VReg) (rel : Rel) : Cntrl :=
  Cntrl.make q.moe q.mtf false va.field vb.field rel.code

/-- Control word of `VS<rel><t>` (R116, R117). -/
def Cntrl.vsCmp (q : MaskQual) (vb : VReg) (rel : Rel) : Cntrl :=
  Cntrl.make q.moe q.mtf false 0 vb.field rel.code

/-- Control word of `VVCVT<s><d>` (R116, R117). -/
def Cntrl.cvt (f : CvtFunc) (u : Bool) (q : MaskQual) (vb vc : VReg) : Cntrl :=
  Cntrl.make q.moe q.mtf u f.code vb.field vc.field

/-- Control word of VVMERGE: MTF from the digit, MOE never set (R113, R116). -/
def Cntrl.vvMerge (mtf : Bool) (va vb vc : VReg) : Cntrl :=
  Cntrl.make false mtf false va.field vb.field vc.field

/-- Control word of VSMERGE in any spelling (R113, R116, R343). -/
def Cntrl.vsMerge (mtf : Bool) (vb vc : VReg) : Cntrl :=
  Cntrl.make false mtf false 0 vb.field vc.field

/-- Control word of IOTA (R113, R116). -/
def Cntrl.iota (mtf : Bool) (vc : VReg) : Cntrl :=
  Cntrl.make false mtf false 0 0 vc.field

/-- `regnum` of VCR (R31). -/
def regnumVCR : Word := 0
/-- `regnum` of VLR (R31). -/
def regnumVLR : Word := 1
/-- `regnum` of VMR<31:0> (R31). -/
def regnumVMRLO : Word := 2
/-- `regnum` of VMR<63:32> (R31). -/
def regnumVMRHI : Word := 3
/-- `regnum` of the SYNC function of MFVP (R31). -/
def regnumSYNC : Word := 4
/-- `regnum` of the MSYNC function of MFVP (R31). -/
def regnumMSYNC : Word := 5

end Sys2Proof
end

