-- ==== Sys2Proof/WellFormed.lean ====
section
/-! DEFINITION. Which instructions the spec gives a meaning: must-be-zero fields are zero (R88), function codes and
register numbers are not Reserved (R103), and MTVP writes VCR and VLR values in range (R151, R152). -/

namespace Sys2Proof

/-- The control word of a compare: no must-be-zero field set, `cntrl<3>` zero, and a relation that is not Reserved
(R88, R280). -/
def cmpWellFormed (mask c : Cntrl) : Bool :=
  Cntrl.zeroUnder mask c && !c.cmpBit3 && c.rel.isSome

/-- The operands of MTVP: a register number that is not Reserved (R155), a VCR value at most 127 (R151), a VLR value at
most 64 (R152). -/
def mtvpWellFormed (n : Word) (x : Longword) : Bool :=
  if n = regnumVCR then decide (x.toNat ≤ 127)
  else if n = regnumVLR then decide (x.toNat ≤ NELEM)
  else decide (n.toNat ≤ 3)

/-- An instruction the spec gives a meaning (R88, R103). -/
def Instr.wellFormed : Instr → Bool
  | .mfvp n _ => decide (n.toNat ≤ 5)
  | .vldl c _ _ => Cntrl.zeroUnder mbzLoad c
  | .vgathl c _ => Cntrl.zeroUnder mbzGather c
  | .vldq c _ _ => Cntrl.zeroUnder mbzLoad c
  | .vgathq c _ => Cntrl.zeroUnder mbzGather c
  | .vvaddl c => Cntrl.zeroUnder mbzVV c
  | .vsaddl c _ => Cntrl.zeroUnder mbzVS c
  | .vvaddg c => Cntrl.zeroUnder mbzVV c
  | .vsaddg c _ => Cntrl.zeroUnder mbzVS c
  | .vvaddf c => Cntrl.zeroUnder mbzVV c
  | .vsaddf c _ => Cntrl.zeroUnder mbzVS c
  | .vvaddd c => Cntrl.zeroUnder mbzVV c
  | .vsaddd c _ => Cntrl.zeroUnder mbzVS c
  | .vvsubl c => Cntrl.zeroUnder mbzVV c
  | .vssubl c _ => Cntrl.zeroUnder mbzVS c
  | .vvsubg c => Cntrl.zeroUnder mbzVV c
  | .vssubg c _ => Cntrl.zeroUnder mbzVS c
  | .vvsubf c => Cntrl.zeroUnder mbzVV c
  | .vssubf c _ => Cntrl.zeroUnder mbzVS c
  | .vvsubd c => Cntrl.zeroUnder mbzVV c
  | .vssubd c _ => Cntrl.zeroUnder mbzVS c
  | .vstl c _ _ => Cntrl.zeroUnder mbzStore c
  | .vscatl c _ => Cntrl.zeroUnder mbzScatter c
  | .vstq c _ _ => Cntrl.zeroUnder mbzStore c
  | .vscatq c _ => Cntrl.zeroUnder mbzScatter c
  | .vvmull c => Cntrl.zeroUnder mbzVV c
  | .vsmull c _ => Cntrl.zeroUnder mbzVS c
  | .vvmulg c => Cntrl.zeroUnder mbzVV c
  | .vsmulg c _ => Cntrl.zeroUnder mbzVS c
  | .vvmulf c => Cntrl.zeroUnder mbzVV c
  | .vsmulf c _ => Cntrl.zeroUnder mbzVS c
  | .vvmuld c => Cntrl.zeroUnder mbzVV c
  | .vsmuld c _ => Cntrl.zeroUnder mbzVS c
  | .vsync n => decide (n = 0)
  | .mtvp n x => mtvpWellFormed n x
  | .vvdivg c => Cntrl.zeroUnder mbzVV c
  | .vsdivg c _ => Cntrl.zeroUnder mbzVS c
  | .vvdivf c => Cntrl.zeroUnder mbzVV c
  | .vsdivf c _ => Cntrl.zeroUnder mbzVS c
  | .vvdivd c => Cntrl.zeroUnder mbzVV c
  | .vsdivd c _ => Cntrl.zeroUnder mbzVS c
  | .vvcmpl c => cmpWellFormed mbzVVNoExc c
  | .vscmpl c _ => cmpWellFormed mbzVSNoExc c
  | .vvcmpg c => cmpWellFormed mbzVVNoExc c
  | .vscmpg c _ => cmpWellFormed mbzVSNoExc c
  | .vvcmpf c => cmpWellFormed mbzVVNoExc c
  | .vscmpf c _ => cmpWellFormed mbzVSNoExc c
  | .vvcmpd c => cmpWellFormed mbzVVNoExc c
  | .vscmpd c _ => cmpWellFormed mbzVSNoExc c
  | .vvbisl c => Cntrl.zeroUnder mbzVVNoExc c
  | .vsbisl c _ => Cntrl.zeroUnder mbzVSNoExc c
  | .vvbicl c => Cntrl.zeroUnder mbzVVNoExc c
  | .vsbicl c _ => Cntrl.zeroUnder mbzVSNoExc c
  | .vvsrll c => Cntrl.zeroUnder mbzVVNoExc c
  | .vssrll c _ => Cntrl.zeroUnder mbzVSNoExc c
  | .vvslll c => Cntrl.zeroUnder mbzVVNoExc c
  | .vsslll c _ => Cntrl.zeroUnder mbzVSNoExc c
  | .vvxorl c => Cntrl.zeroUnder mbzVVNoExc c
  | .vsxorl c _ => Cntrl.zeroUnder mbzVSNoExc c
  | .vvcvt c => Cntrl.zeroUnder mbzVV c && c.cvtFunc.isSome
  | .iota c _ => Cntrl.zeroUnder mbzIota c
  | .vvmerge c => Cntrl.zeroUnder mbzVVMerge c
  | .vsmerge c _ => Cntrl.zeroUnder mbzVSMerge c
  | .vvgtrf _ _ _ => true
  | .vveqlf _ _ _ => true
  | .vvlssf _ _ _ => true
  | .vvleqf _ _ _ => true
  | .vvneqf _ _ _ => true
  | .vvgeqf _ _ _ => true
  | .vsgtrf _ _ _ => true
  | .vseqlf _ _ _ => true
  | .vslssf _ _ _ => true
  | .vsleqf _ _ _ => true
  | .vsneqf _ _ _ => true
  | .vsgeqf _ _ _ => true
  | .vvgtrd _ _ _ => true
  | .vveqld _ _ _ => true
  | .vvlssd _ _ _ => true
  | .vvleqd _ _ _ => true
  | .vvneqd _ _ _ => true
  | .vvgeqd _ _ _ => true
  | .vsgtrd _ _ _ => true
  | .vseqld _ _ _ => true
  | .vslssd _ _ _ => true
  | .vsleqd _ _ _ => true
  | .vsneqd _ _ _ => true
  | .vsgeqd _ _ _ => true
  | .vvgtrg _ _ _ => true
  | .vveqlg _ _ _ => true
  | .vvlssg _ _ _ => true
  | .vvleqg _ _ _ => true
  | .vvneqg _ _ _ => true
  | .vvgeqg _ _ _ => true
  | .vsgtrg _ _ _ => true
  | .vseqlg _ _ _ => true
  | .vslssg _ _ _ => true
  | .vsleqg _ _ _ => true
  | .vsneqg _ _ _ => true
  | .vsgeqg _ _ _ => true
  | .vvgtrl _ _ _ => true
  | .vveqll _ _ _ => true
  | .vvlssl _ _ _ => true
  | .vvleql _ _ _ => true
  | .vvneql _ _ _ => true
  | .vvgeql _ _ _ => true
  | .vsgtrl _ _ _ => true
  | .vseqll _ _ _ => true
  | .vslssl _ _ _ => true
  | .vsleql _ _ _ => true
  | .vsneql _ _ _ => true
  | .vsgeql _ _ _ => true
  | .vvcvtlf _ _ _ _ => true
  | .vvcvtld _ _ _ _ => true
  | .vvcvtlg _ _ _ _ => true
  | .vvcvtfl _ _ _ _ => true
  | .vvcvtrfl _ _ _ _ => true
  | .vvcvtfd _ _ _ _ => true
  | .vvcvtfg _ _ _ _ => true
  | .vvcvtdl _ _ _ _ => true
  | .vvcvtdf _ _ _ _ => true
  | .vvcvtrdl _ _ _ _ => true
  | .vvcvtgl _ _ _ _ => true
  | .vvcvtgf _ _ _ _ => true
  | .vvcvtrgl _ _ _ _ => true
  | .mfvcr _ => true
  | .mfvlr _ => true
  | .mfvmrlo _ => true
  | .mfvmrhi _ => true
  | .synch _ => true
  | .msynch _ => true
  | .mtvcr x => decide (x.toNat ≤ 127)
  | .mtvlr x => decide (x.toNat ≤ NELEM)
  | .mtvmrlo _ => true
  | .mtvmrhi _ => true
  | .vsynch => true
  | .vsmergef _ _ _ _ => true
  | .vsmerged _ _ _ _ => true
  | .vsmergeg _ _ _ _ => true

end Sys2Proof
end

