-- ==== Sys2Proof/Decode.lean ====
section
/-! DEFINITION. The decoder: from instruction bytes to an instruction, rejecting by name (R81 to R84, R100, R102, R104); and
the encoder, with the control word in immediate mode as the assembler generates it (R84) and every other operand in a mode the
model chooses (log 46). -/

namespace Sys2Proof

/-! ### Byte order: every multi-byte constant is little-endian (R83, R84) -/

/-- Byte `k` of a value, the least significant first. -/
def byteOf {w : Nat} (v : BitVec w) (k : Nat) : Byte := v.extractLsb' (8 * k) 8

/-- The word whose bytes are `b0` (low) and `b1`. -/
def wordOfBytes (b0 b1 : Byte) : Word := b1 ++ b0

/-- The longword whose bytes are `b0` (lowest) to `b3`. -/
def longOfBytes (b0 b1 b2 b3 : Byte) : Longword := b3 ++ b2 ++ b1 ++ b0

/-- The bytes of a word, low first. -/
def bytesOfWord (v : Word) : List Byte := [byteOf v 0, byteOf v 1]

/-- The bytes of a longword, lowest first. -/
def bytesOfLong (v : Longword) : List Byte := [byteOf v 0, byteOf v 1, byteOf v 2, byteOf v 3]

/-- The bytes of a quadword, lowest first. -/
def bytesOfQuad (v : Quadword) : List Byte :=
  [byteOf v 0, byteOf v 1, byteOf v 2, byteOf v 3, byteOf v 4, byteOf v 5, byteOf v 6, byteOf v 7]

/-! ### Operands -/

/-- The access and data types of instruction-stream operands (R13): a word, longword or quadword that is read, an
address, a longword that is written. -/
inductive OperandKind where
  | rw | rl | rq | ab | wl
  deriving DecidableEq, Repr

/-- The operand's size in bytes, from its data type (R13). -/
def OperandKind.size : OperandKind → Nat
  | .rw => 2
  | .rl => 4
  | .rq => 8
  | .ab => 1
  | .wl => 4

/-- The operand specifier modes of R83 that compute an address; the base of index mode is any of them, index mode too. With
R15, autoincrement is immediate mode and autoincrement deferred is absolute mode. -/
inductive MemMode where
  | deferred (n : GReg)
  | autodec (n : GReg)
  | autoinc (n : GReg)
  | autoincDef (n : GReg)
  | absolute (a : Address)
  | disp (n : GReg) (d : Longword)
  | dispDef (n : GReg) (d : Longword)
  | indexed (x : GReg) (base : MemMode)
  deriving DecidableEq, Repr

/-- The mode of an operand specifier (R83). -/
inductive Spec where
  | literal (v : BitVec 6)
  | register (n : GReg)
  | immW (v : Word)
  | immL (v : Longword)
  | immQ (v : Quadword)
  | mem (m : MemMode)
  deriving DecidableEq, Repr

/-- An operand specifier in its place: its mode, and how many bytes into the instruction the byte after it lies, which is where
R15 points while it is evaluated (log 36). -/
structure Specifier where
  spec : Spec
  after : Nat
  deriving DecidableEq, Repr

/-- The value of an instruction-stream operand (R7). -/
inductive OpVal where
  | word (v : Word)
  | long (v : Longword)
  | quad (v : Quadword)
  | addr (a : Address)
  | dest (d : Dest)
  deriving DecidableEq, Repr

/-- Why bytes are not an instruction of this spec. Each is a refusal, not an exception (R430), and safe: the step stops
where the hardware may go on. -/
inductive DecodeError where
  /-- there are no bytes: the end of the program -/
  | noInstruction
  /-- the first two bytes are no opcode of R100 (R102) -/
  | unknownOpcode
  /-- the bytes end inside the instruction -/
  | truncated
  /-- an operand mode that R83 does not allow for the operand's access type, or an index base that computes no address -/
  | modeNotAllowed
  /-- a quadword in register mode at R15: there is no R16 to hold its high half (R32, R83) -/
  | quadwordAtR15
  /-- the operand's value depends on scalar registers or memory: `decode` alone cannot give it, a step can -/
  | needsScalarState
  deriving DecidableEq, Repr

/-- Two bytes as a word. -/
def takeWord : List Byte → Except DecodeError (Word × List Byte)
  | b0 :: b1 :: rest => .ok (wordOfBytes b0 b1, rest)
  | _ => .error .truncated

/-- Four bytes as a longword. -/
def takeLong : List Byte → Except DecodeError (Longword × List Byte)
  | b0 :: b1 :: b2 :: b3 :: rest => .ok (longOfBytes b0 b1 b2 b3, rest)
  | _ => .error .truncated

/-- Eight bytes as a quadword. -/
def takeQuad : List Byte → Except DecodeError (Quadword × List Byte)
  | b0 :: b1 :: b2 :: b3 :: b4 :: b5 :: b6 :: b7 :: rest =>
    .ok (longOfBytes b4 b5 b6 b7 ++ longOfBytes b0 b1 b2 b3, rest)
  | _ => .error .truncated

/-- A signed displacement of 1, 2 or 4 bytes: modes A and B, C and D, E and F (R83). -/
def takeDisp (mode : Nat) : List Byte → Except DecodeError (Longword × List Byte)
  | [] => .error .truncated
  | b :: rest =>
    if mode ≤ 11 then .ok (b.signExtend 32, rest)
    else if mode ≤ 13 then
      match takeWord (b :: rest) with
      | .ok (w, r) => .ok (w.signExtend 32, r)
      | .error e => .error e
    else takeLong (b :: rest)

/-- A specifier mode 6 to F that names memory, `n` its register field and `bs` the bytes after the mode byte (R83). -/
def parseMem (mode : Nat) (n : GReg) (bs : List Byte) : Except DecodeError (MemMode × List Byte) :=
  if mode = 6 then .ok (.deferred n, bs)
  else if mode = 7 then .ok (.autodec n, bs)
  else if mode = 8 then
    if n = 15 then .error .modeNotAllowed else .ok (.autoinc n, bs)
  else if mode = 9 then
    if n = 15 then
      match takeLong bs with
      | .ok (a, rest) => .ok (.absolute a, rest)
      | .error e => .error e
    else .ok (.autoincDef n, bs)
  else if 10 ≤ mode then
    match takeDisp mode bs with
    | .ok (d, rest) => .ok (if mode % 2 = 0 then .disp n d else .dispDef n d, rest)
    | .error e => .error e
  else .error .modeNotAllowed

/-- An immediate constant, as many bytes as the operand's data type; not allowed for an address or a written operand
(R83). -/
def parseImmediate (k : OperandKind) (bs : List Byte) : Except DecodeError (Spec × List Byte) :=
  match k with
  | .rw =>
    match takeWord bs with
    | .ok (v, rest) => .ok (.immW v, rest)
    | .error e => .error e
  | .rl =>
    match takeLong bs with
    | .ok (v, rest) => .ok (.immL v, rest)
    | .error e => .error e
  | .rq =>
    match takeQuad bs with
    | .ok (v, rest) => .ok (.immQ v, rest)
    | .error e => .error e
  | .ab => .error .modeNotAllowed
  | .wl => .error .modeNotAllowed

/-- Short literal and immediate modes are for read operands alone (R83). -/
def OperandKind.takesConstant : OperandKind → Bool
  | .rw => true
  | .rl => true
  | .rq => true
  | .ab => false
  | .wl => false

/-- Register mode is not for an address operand (R83). -/
def OperandKind.takesRegister : OperandKind → Bool
  | .rw => true
  | .rl => true
  | .rq => true
  | .ab => false
  | .wl => true

/-- A specifier that computes an address (R83): index mode is followed by another such specifier, its base. -/
def parseAddress : List Byte → Except DecodeError (MemMode × List Byte)
  | [] => .error .truncated
  | b :: rest =>
    let mode := (b.extractLsb' 4 4).toNat
    let n : GReg := (b.extractLsb' 0 4).toFin
    if mode = 4 then
      match parseAddress rest with
      | .ok (m, r) => .ok (.indexed n m, r)
      | .error e => .error e
    else parseMem mode n rest

/-- One operand specifier (R83): bits 7:4 of its first byte are the mode, bits 3:0 a register number. -/
def parseSpec (k : OperandKind) : List Byte → Except DecodeError (Spec × List Byte)
  | [] => .error .truncated
  | b :: rest =>
    let mode := (b.extractLsb' 4 4).toNat
    let n : GReg := (b.extractLsb' 0 4).toFin
    if mode < 4 then
      if k.takesConstant then .ok (.literal (b.extractLsb' 0 6), rest) else .error .modeNotAllowed
    else if mode = 5 then
      if k.takesRegister then .ok (.register n, rest) else .error .modeNotAllowed
    else if mode = 8 ∧ n = 15 then parseImmediate k rest
    else
      match parseAddress (b :: rest) with
      | .ok (m, r) => .ok (.mem m, r)
      | .error e => .error e

/-- The specifiers of an instruction's operands, in order (R80, R104); `total` is how many bytes the whole text has, so that
`total - rest.length` counts the bytes up to the end of a specifier. -/
def parseSpecs (total : Nat) : List OperandKind → List Byte → Except DecodeError (List Specifier × List Byte)
  | [], bs => .ok ([], bs)
  | k :: ks, bs =>
    match parseSpec k bs with
    | .error e => .error e
    | .ok (sp, rest) =>
      match parseSpecs total ks rest with
      | .error e => .error e
      | .ok (sps, rest') => .ok (⟨sp, total - rest.length⟩ :: sps, rest')

/-! ### The opcode map -/

/-- The eight instruction formats (R82), each with the constructor it applies to its operand values. -/
inductive Builder where
  | c (f : Cntrl → Instr)
  | cl (f : Cntrl → Longword → Instr)
  | cq (f : Cntrl → Quadword → Instr)
  | ca (f : Cntrl → Address → Instr)
  | cal (f : Cntrl → Address → Longword → Instr)
  | rw (f : Word → Dest → Instr)
  | rl (f : Word → Longword → Instr)
  | r (f : Word → Instr)

/-- The operand list of a format (R82). -/
def Builder.kinds : Builder → List OperandKind
  | .c _ => [.rw]
  | .cl _ => [.rw, .rl]
  | .cq _ => [.rw, .rq]
  | .ca _ => [.rw, .ab]
  | .cal _ => [.rw, .ab, .rl]
  | .rw _ => [.rw, .wl]
  | .rl _ => [.rw, .rl]
  | .r _ => [.rw]

/-- The instruction of a format with these operand values (R7, R82). -/
def Builder.apply : Builder → List OpVal → Option Instr
  | .c f, [.word w] => some (f w)
  | .cl f, [.word w, .long x] => some (f w x)
  | .cq f, [.word w, .quad x] => some (f w x)
  | .ca f, [.word w, .addr a] => some (f w a)
  | .cal f, [.word w, .addr a, .long x] => some (f w a x)
  | .rw f, [.word n, .dest d] => some (f n d)
  | .rl f, [.word n, .long x] => some (f n x)
  | .r f, [.word n] => some (f n)
  | _, _ => none

/-- One row of the opcode map: the second opcode byte and the instruction (R100). -/
structure OpRow where
  code : Nat
  build : Builder

/-- Rows of R100: MFVP and the loads. -/
def opRowsLoad : List OpRow :=
  [
   ⟨0x31, .rw .mfvp⟩,
   ⟨0x34, .cal .vldl⟩,
   ⟨0x35, .ca .vgathl⟩,
   ⟨0x36, .cal .vldq⟩,
   ⟨0x37, .ca .vgathq⟩]

/-- Rows of R100: add and subtract. -/
def opRowsAddSub : List OpRow :=
  [
   ⟨0x80, .c .vvaddl⟩,
   ⟨0x81, .cl .vsaddl⟩,
   ⟨0x82, .c .vvaddg⟩,
   ⟨0x83, .cq .vsaddg⟩,
   ⟨0x84, .c .vvaddf⟩,
   ⟨0x85, .cl .vsaddf⟩,
   ⟨0x86, .c .vvaddd⟩,
   ⟨0x87, .cq .vsaddd⟩,
   ⟨0x88, .c .vvsubl⟩,
   ⟨0x89, .cl .vssubl⟩,
   ⟨0x8A, .c .vvsubg⟩,
   ⟨0x8B, .cq .vssubg⟩,
   ⟨0x8C, .c .vvsubf⟩,
   ⟨0x8D, .cl .vssubf⟩,
   ⟨0x8E, .c .vvsubd⟩,
   ⟨0x8F, .cq .vssubd⟩]

/-- Rows of R100: stores. -/
def opRowsStore : List OpRow :=
  [
   ⟨0x9C, .cal .vstl⟩,
   ⟨0x9D, .ca .vscatl⟩,
   ⟨0x9E, .cal .vstq⟩,
   ⟨0x9F, .ca .vscatq⟩]

/-- Rows of R100: multiply, divide, MTVP and VSYNC. -/
def opRowsMulDiv : List OpRow :=
  [
   ⟨0xA0, .c .vvmull⟩,
   ⟨0xA1, .cl .vsmull⟩,
   ⟨0xA2, .c .vvmulg⟩,
   ⟨0xA3, .cq .vsmulg⟩,
   ⟨0xA4, .c .vvmulf⟩,
   ⟨0xA5, .cl .vsmulf⟩,
   ⟨0xA6, .c .vvmuld⟩,
   ⟨0xA7, .cq .vsmuld⟩,
   ⟨0xA8, .r .vsync⟩,
   ⟨0xA9, .rl .mtvp⟩,
   ⟨0xAA, .c .vvdivg⟩,
   ⟨0xAB, .cq .vsdivg⟩,
   ⟨0xAC, .c .vvdivf⟩,
   ⟨0xAD, .cl .vsdivf⟩,
   ⟨0xAE, .c .vvdivd⟩,
   ⟨0xAF, .cq .vsdivd⟩]

/-- Rows of R100: compare and logical. -/
def opRowsCompareLogical : List OpRow :=
  [
   ⟨0xC0, .c .vvcmpl⟩,
   ⟨0xC1, .cl .vscmpl⟩,
   ⟨0xC2, .c .vvcmpg⟩,
   ⟨0xC3, .cq .vscmpg⟩,
   ⟨0xC4, .c .vvcmpf⟩,
   ⟨0xC5, .cl .vscmpf⟩,
   ⟨0xC6, .c .vvcmpd⟩,
   ⟨0xC7, .cq .vscmpd⟩,
   ⟨0xC8, .c .vvbisl⟩,
   ⟨0xC9, .cl .vsbisl⟩,
   ⟨0xCC, .c .vvbicl⟩,
   ⟨0xCD, .cl .vsbicl⟩]

/-- Rows of R100: shift, logical, convert, IOTA and merge. -/
def opRowsShiftOther : List OpRow :=
  [
   ⟨0xE0, .c .vvsrll⟩,
   ⟨0xE1, .cl .vssrll⟩,
   ⟨0xE4, .c .vvslll⟩,
   ⟨0xE5, .cl .vsslll⟩,
   ⟨0xE8, .c .vvxorl⟩,
   ⟨0xE9, .cl .vsxorl⟩,
   ⟨0xEC, .c .vvcvt⟩,
   ⟨0xED, .cl .iota⟩,
   ⟨0xEE, .c .vvmerge⟩,
   ⟨0xEF, .cq .vsmerge⟩]

/-- The 63 opcodes (R100). -/
def opcodeTable : List OpRow :=
  opRowsLoad ++ opRowsAddSub ++ opRowsStore ++ opRowsMulDiv ++ opRowsCompareLogical ++ opRowsShiftOther

/-- The row of a second opcode byte (R100); none for a byte the map does not list (R102). -/
def findRow (code : Nat) : Option Builder :=
  (opcodeTable.find? fun row => row.code == code).map OpRow.build

/-- An instruction as its bytes give it: the row of its opcode and its operand specifiers. -/
structure RawInstr where
  build : Builder
  specs : List Specifier

/-- From bytes to an opcode and its specifiers, and the instruction's length in bytes (R81, R104): FD first, then the
second opcode byte, then one specifier per operand. -/
def parse (bs : List Byte) : Except DecodeError (RawInstr × Nat) :=
  match bs with
  | [] => .error .noInstruction
  | [_] => .error .truncated
  | b0 :: b1 :: rest =>
    if b0 = 0xFD#8 then
      match findRow b1.toNat with
      | none => .error .unknownOpcode
      | some build =>
        match parseSpecs bs.length build.kinds rest with
        | .error e => .error e
        | .ok (sps, rest') => .ok (⟨build, sps⟩, bs.length - rest'.length)
    else .error .unknownOpcode

/-- A short literal as an operand value, zero-extended (R83). -/
def literalVal (k : OperandKind) (v : BitVec 6) : Option OpVal :=
  match k with
  | .rw => some (.word (v.setWidth 16))
  | .rl => some (.long (v.setWidth 32))
  | .rq => some (.quad (v.setWidth 64))
  | .ab => none
  | .wl => none

/-- The value of a specifier that carries it whole: a literal, a constant, an address, or the place of a result. -/
def staticVal (k : OperandKind) : Spec → Option OpVal
  | .literal v => literalVal k v
  | .immW v => some (.word v)
  | .immL v => some (.long v)
  | .immQ v => some (.quad v)
  | .register n =>
    match k with
    | .wl => some (.dest (.reg n))
    | _ => none
  | .mem (.absolute a) =>
    match k with
    | .ab => some (.addr a)
    | .wl => some (.dest (.mem a))
    | _ => none
  | .mem _ => none

/-- The values of specifiers that carry them whole. -/
def staticVals : List OperandKind → List Specifier → Option (List OpVal)
  | [], [] => some []
  | k :: ks, sp :: sps =>
    match staticVal k sp.spec, staticVals ks sps with
    | some v, some vs => some (v :: vs)
    | _, _ => none
  | _, _ => none

/-- The decoder: an instruction at the decoded-operand level (R7) and its length. Operand values that depend on scalar
registers or memory are a step's matter, and refused here by name. -/
def decode (bs : List Byte) : Except DecodeError (Instr × Nat) :=
  match parse bs with
  | .error e => .error e
  | .ok (raw, n) =>
    match staticVals raw.build.kinds raw.specs with
    | none => .error .needsScalarState
    | some vs =>
      match raw.build.apply vs with
      | none => .error .needsScalarState
      | some i => .ok (i, n)

/-! ### The opcode-level instruction of a mnemonic -/

/-- The instruction an assembler mnemonic stands for, opcode and field values (R117, R141, R279, R294, R343); an
opcode-level instruction stands for itself. This is the form the decoder gives (log 39). -/
def Instr.lower : Instr → Instr
  | .mfvp n d => .mfvp n d
  | .vldl c b t => .vldl c b t
  | .vgathl c b => .vgathl c b
  | .vldq c b t => .vldq c b t
  | .vgathq c b => .vgathq c b
  | .vvaddl c => .vvaddl c
  | .vsaddl c x => .vsaddl c x
  | .vvaddg c => .vvaddg c
  | .vsaddg c x => .vsaddg c x
  | .vvaddf c => .vvaddf c
  | .vsaddf c x => .vsaddf c x
  | .vvaddd c => .vvaddd c
  | .vsaddd c x => .vsaddd c x
  | .vvsubl c => .vvsubl c
  | .vssubl c x => .vssubl c x
  | .vvsubg c => .vvsubg c
  | .vssubg c x => .vssubg c x
  | .vvsubf c => .vvsubf c
  | .vssubf c x => .vssubf c x
  | .vvsubd c => .vvsubd c
  | .vssubd c x => .vssubd c x
  | .vstl c b t => .vstl c b t
  | .vscatl c b => .vscatl c b
  | .vstq c b t => .vstq c b t
  | .vscatq c b => .vscatq c b
  | .vvmull c => .vvmull c
  | .vsmull c x => .vsmull c x
  | .vvmulg c => .vvmulg c
  | .vsmulg c x => .vsmulg c x
  | .vvmulf c => .vvmulf c
  | .vsmulf c x => .vsmulf c x
  | .vvmuld c => .vvmuld c
  | .vsmuld c x => .vsmuld c x
  | .vsync n => .vsync n
  | .mtvp n x => .mtvp n x
  | .vvdivg c => .vvdivg c
  | .vsdivg c x => .vsdivg c x
  | .vvdivf c => .vvdivf c
  | .vsdivf c x => .vsdivf c x
  | .vvdivd c => .vvdivd c
  | .vsdivd c x => .vsdivd c x
  | .vvcmpl c => .vvcmpl c
  | .vscmpl c x => .vscmpl c x
  | .vvcmpg c => .vvcmpg c
  | .vscmpg c x => .vscmpg c x
  | .vvcmpf c => .vvcmpf c
  | .vscmpf c x => .vscmpf c x
  | .vvcmpd c => .vvcmpd c
  | .vscmpd c x => .vscmpd c x
  | .vvbisl c => .vvbisl c
  | .vsbisl c x => .vsbisl c x
  | .vvbicl c => .vvbicl c
  | .vsbicl c x => .vsbicl c x
  | .vvsrll c => .vvsrll c
  | .vssrll c x => .vssrll c x
  | .vvslll c => .vvslll c
  | .vsslll c x => .vsslll c x
  | .vvxorl c => .vvxorl c
  | .vsxorl c x => .vsxorl c x
  | .vvcvt c => .vvcvt c
  | .iota c x => .iota c x
  | .vvmerge c => .vvmerge c
  | .vsmerge c x => .vsmerge c x
  | .vvgtrf q va vb => .vvcmpf (Cntrl.vvCmp q va vb .gtr)
  | .vveqlf q va vb => .vvcmpf (Cntrl.vvCmp q va vb .eql)
  | .vvlssf q va vb => .vvcmpf (Cntrl.vvCmp q va vb .lss)
  | .vvleqf q va vb => .vvcmpf (Cntrl.vvCmp q va vb .leq)
  | .vvneqf q va vb => .vvcmpf (Cntrl.vvCmp q va vb .neq)
  | .vvgeqf q va vb => .vvcmpf (Cntrl.vvCmp q va vb .geq)
  | .vsgtrf q x vb => .vscmpf (Cntrl.vsCmp q vb .gtr) x
  | .vseqlf q x vb => .vscmpf (Cntrl.vsCmp q vb .eql) x
  | .vslssf q x vb => .vscmpf (Cntrl.vsCmp q vb .lss) x
  | .vsleqf q x vb => .vscmpf (Cntrl.vsCmp q vb .leq) x
  | .vsneqf q x vb => .vscmpf (Cntrl.vsCmp q vb .neq) x
  | .vsgeqf q x vb => .vscmpf (Cntrl.vsCmp q vb .geq) x
  | .vvgtrd q va vb => .vvcmpd (Cntrl.vvCmp q va vb .gtr)
  | .vveqld q va vb => .vvcmpd (Cntrl.vvCmp q va vb .eql)
  | .vvlssd q va vb => .vvcmpd (Cntrl.vvCmp q va vb .lss)
  | .vvleqd q va vb => .vvcmpd (Cntrl.vvCmp q va vb .leq)
  | .vvneqd q va vb => .vvcmpd (Cntrl.vvCmp q va vb .neq)
  | .vvgeqd q va vb => .vvcmpd (Cntrl.vvCmp q va vb .geq)
  | .vsgtrd q x vb => .vscmpd (Cntrl.vsCmp q vb .gtr) x
  | .vseqld q x vb => .vscmpd (Cntrl.vsCmp q vb .eql) x
  | .vslssd q x vb => .vscmpd (Cntrl.vsCmp q vb .lss) x
  | .vsleqd q x vb => .vscmpd (Cntrl.vsCmp q vb .leq) x
  | .vsneqd q x vb => .vscmpd (Cntrl.vsCmp q vb .neq) x
  | .vsgeqd q x vb => .vscmpd (Cntrl.vsCmp q vb .geq) x
  | .vvgtrg q va vb => .vvcmpg (Cntrl.vvCmp q va vb .gtr)
  | .vveqlg q va vb => .vvcmpg (Cntrl.vvCmp q va vb .eql)
  | .vvlssg q va vb => .vvcmpg (Cntrl.vvCmp q va vb .lss)
  | .vvleqg q va vb => .vvcmpg (Cntrl.vvCmp q va vb .leq)
  | .vvneqg q va vb => .vvcmpg (Cntrl.vvCmp q va vb .neq)
  | .vvgeqg q va vb => .vvcmpg (Cntrl.vvCmp q va vb .geq)
  | .vsgtrg q x vb => .vscmpg (Cntrl.vsCmp q vb .gtr) x
  | .vseqlg q x vb => .vscmpg (Cntrl.vsCmp q vb .eql) x
  | .vslssg q x vb => .vscmpg (Cntrl.vsCmp q vb .lss) x
  | .vsleqg q x vb => .vscmpg (Cntrl.vsCmp q vb .leq) x
  | .vsneqg q x vb => .vscmpg (Cntrl.vsCmp q vb .neq) x
  | .vsgeqg q x vb => .vscmpg (Cntrl.vsCmp q vb .geq) x
  | .vvgtrl q va vb => .vvcmpl (Cntrl.vvCmp q va vb .gtr)
  | .vveqll q va vb => .vvcmpl (Cntrl.vvCmp q va vb .eql)
  | .vvlssl q va vb => .vvcmpl (Cntrl.vvCmp q va vb .lss)
  | .vvleql q va vb => .vvcmpl (Cntrl.vvCmp q va vb .leq)
  | .vvneql q va vb => .vvcmpl (Cntrl.vvCmp q va vb .neq)
  | .vvgeql q va vb => .vvcmpl (Cntrl.vvCmp q va vb .geq)
  | .vsgtrl q x vb => .vscmpl (Cntrl.vsCmp q vb .gtr) x
  | .vseqll q x vb => .vscmpl (Cntrl.vsCmp q vb .eql) x
  | .vslssl q x vb => .vscmpl (Cntrl.vsCmp q vb .lss) x
  | .vsleql q x vb => .vscmpl (Cntrl.vsCmp q vb .leq) x
  | .vsneql q x vb => .vscmpl (Cntrl.vsCmp q vb .neq) x
  | .vsgeql q x vb => .vscmpl (Cntrl.vsCmp q vb .geq) x
  | .vvcvtlf u q vb vc => .vvcvt (Cntrl.cvt .cvtlf u q vb vc)
  | .vvcvtld u q vb vc => .vvcvt (Cntrl.cvt .cvtld u q vb vc)
  | .vvcvtlg u q vb vc => .vvcvt (Cntrl.cvt .cvtlg u q vb vc)
  | .vvcvtfl u q vb vc => .vvcvt (Cntrl.cvt .cvtfl u q vb vc)
  | .vvcvtrfl u q vb vc => .vvcvt (Cntrl.cvt .cvtrfl u q vb vc)
  | .vvcvtfd u q vb vc => .vvcvt (Cntrl.cvt .cvtfd u q vb vc)
  | .vvcvtfg u q vb vc => .vvcvt (Cntrl.cvt .cvtfg u q vb vc)
  | .vvcvtdl u q vb vc => .vvcvt (Cntrl.cvt .cvtdl u q vb vc)
  | .vvcvtdf u q vb vc => .vvcvt (Cntrl.cvt .cvtdf u q vb vc)
  | .vvcvtrdl u q vb vc => .vvcvt (Cntrl.cvt .cvtrdl u q vb vc)
  | .vvcvtgl u q vb vc => .vvcvt (Cntrl.cvt .cvtgl u q vb vc)
  | .vvcvtgf u q vb vc => .vvcvt (Cntrl.cvt .cvtgf u q vb vc)
  | .vvcvtrgl u q vb vc => .vvcvt (Cntrl.cvt .cvtrgl u q vb vc)
  | .mfvcr d => .mfvp regnumVCR d
  | .mfvlr d => .mfvp regnumVLR d
  | .mfvmrlo d => .mfvp regnumVMRLO d
  | .mfvmrhi d => .mfvp regnumVMRHI d
  | .synch d => .mfvp regnumSYNC d
  | .msynch d => .mfvp regnumMSYNC d
  | .mtvcr x => .mtvp regnumVCR x
  | .mtvlr x => .mtvp regnumVLR x
  | .mtvmrlo x => .mtvp regnumVMRLO x
  | .mtvmrhi x => .mtvp regnumVMRHI x
  | .vsynch => .vsync 0
  | .vsmergef t x vb vc => .vsmerge (Cntrl.vsMerge t vb vc) x
  | .vsmerged t x vb vc => .vsmerge (Cntrl.vsMerge t vb vc) x
  | .vsmergeg t x vb vc => .vsmerge (Cntrl.vsMerge t vb vc) x

/-! ### The encoder

R84 fixes one specifier, immediate mode for a vector control word. DESIGN CHOICE, log 46: every other operand's mode is the
model's, for the spec does not say which one the assembler generates. Those operands are regnum (R91, R160: short literal or
immediate, both decoded), a scalar or stride, a base address and a destination. `parseSpec` reads every mode of R83. -/

/-- A word in immediate mode: `8F lo hi`. For a control word this is R84's; for regnum it is the model's choice (log 46). -/
def immWord (v : Word) : List Byte := 0x8F#8 :: bytesOfWord v
/-- A longword in immediate mode (R83), the model's choice of mode (log 46). -/
def immLong (v : Longword) : List Byte := 0x8F#8 :: bytesOfLong v
/-- A quadword in immediate mode (R83), the model's choice of mode (log 46). -/
def immQuad (v : Quadword) : List Byte := 0x8F#8 :: bytesOfQuad v
/-- An address in absolute mode (R83), the model's choice of mode (log 46). -/
def absAddr (a : Address) : List Byte := 0x9F#8 :: bytesOfLong a
/-- A destination: register mode `5n`, or absolute mode for memory (R83), the model's choice of mode (log 46). -/
def destBytes : Dest → List Byte
  | .reg n => [BitVec.ofNat 8 (0x50 + n.val)]
  | .mem a => absAddr a

/-- Format C (R82, R84). -/
def encC (code : Byte) (c : Cntrl) : List Byte := 0xFD#8 :: code :: immWord c
/-- Format CL (R82). -/
def encCL (code : Byte) (c : Cntrl) (x : Longword) : List Byte := 0xFD#8 :: code :: (immWord c ++ immLong x)
/-- Format CQ (R82). -/
def encCQ (code : Byte) (c : Cntrl) (x : Quadword) : List Byte := 0xFD#8 :: code :: (immWord c ++ immQuad x)
/-- Format CA (R82). -/
def encCA (code : Byte) (c : Cntrl) (a : Address) : List Byte := 0xFD#8 :: code :: (immWord c ++ absAddr a)
/-- Format CAL (R82). -/
def encCAL (code : Byte) (c : Cntrl) (a : Address) (x : Longword) : List Byte :=
  0xFD#8 :: code :: (immWord c ++ (absAddr a ++ immLong x))
/-- Format RW (R82). DESIGN CHOICE, log 46: regnum in immediate mode, where R91 says that the source does not say the mode. -/
def encRW (code : Byte) (n : Word) (d : Dest) : List Byte := 0xFD#8 :: code :: (immWord n ++ destBytes d)
/-- Format RL (R82). DESIGN CHOICE, log 46: regnum in immediate mode, where R91 says that the source does not say the mode. -/
def encRL (code : Byte) (n : Word) (x : Longword) : List Byte := 0xFD#8 :: code :: (immWord n ++ immLong x)
/-- Format R (R82). DESIGN CHOICE, log 46: regnum in immediate mode, `FD A8 8F 00 00` of R160's two spellings of VSYNCH; the other,
the short literal of `FD A8 00`, decodes to the same instruction. -/
def encR (code : Byte) (n : Word) : List Byte := 0xFD#8 :: code :: immWord n

/-- The bytes of an instruction: opcode (R81, R100), then each operand behind its specifier byte, in the modes of log 46. -/
def encode : Instr → List Byte
  | .mfvp n d => encRW 0x31 n d
  | .vldl c b t => encCAL 0x34 c b t
  | .vgathl c b => encCA 0x35 c b
  | .vldq c b t => encCAL 0x36 c b t
  | .vgathq c b => encCA 0x37 c b
  | .vvaddl c => encC 0x80 c
  | .vsaddl c x => encCL 0x81 c x
  | .vvaddg c => encC 0x82 c
  | .vsaddg c x => encCQ 0x83 c x
  | .vvaddf c => encC 0x84 c
  | .vsaddf c x => encCL 0x85 c x
  | .vvaddd c => encC 0x86 c
  | .vsaddd c x => encCQ 0x87 c x
  | .vvsubl c => encC 0x88 c
  | .vssubl c x => encCL 0x89 c x
  | .vvsubg c => encC 0x8A c
  | .vssubg c x => encCQ 0x8B c x
  | .vvsubf c => encC 0x8C c
  | .vssubf c x => encCL 0x8D c x
  | .vvsubd c => encC 0x8E c
  | .vssubd c x => encCQ 0x8F c x
  | .vstl c b t => encCAL 0x9C c b t
  | .vscatl c b => encCA 0x9D c b
  | .vstq c b t => encCAL 0x9E c b t
  | .vscatq c b => encCA 0x9F c b
  | .vvmull c => encC 0xA0 c
  | .vsmull c x => encCL 0xA1 c x
  | .vvmulg c => encC 0xA2 c
  | .vsmulg c x => encCQ 0xA3 c x
  | .vvmulf c => encC 0xA4 c
  | .vsmulf c x => encCL 0xA5 c x
  | .vvmuld c => encC 0xA6 c
  | .vsmuld c x => encCQ 0xA7 c x
  | .vsync n => encR 0xA8 n
  | .mtvp n x => encRL 0xA9 n x
  | .vvdivg c => encC 0xAA c
  | .vsdivg c x => encCQ 0xAB c x
  | .vvdivf c => encC 0xAC c
  | .vsdivf c x => encCL 0xAD c x
  | .vvdivd c => encC 0xAE c
  | .vsdivd c x => encCQ 0xAF c x
  | .vvcmpl c => encC 0xC0 c
  | .vscmpl c x => encCL 0xC1 c x
  | .vvcmpg c => encC 0xC2 c
  | .vscmpg c x => encCQ 0xC3 c x
  | .vvcmpf c => encC 0xC4 c
  | .vscmpf c x => encCL 0xC5 c x
  | .vvcmpd c => encC 0xC6 c
  | .vscmpd c x => encCQ 0xC7 c x
  | .vvbisl c => encC 0xC8 c
  | .vsbisl c x => encCL 0xC9 c x
  | .vvbicl c => encC 0xCC c
  | .vsbicl c x => encCL 0xCD c x
  | .vvsrll c => encC 0xE0 c
  | .vssrll c x => encCL 0xE1 c x
  | .vvslll c => encC 0xE4 c
  | .vsslll c x => encCL 0xE5 c x
  | .vvxorl c => encC 0xE8 c
  | .vsxorl c x => encCL 0xE9 c x
  | .vvcvt c => encC 0xEC c
  | .iota c x => encCL 0xED c x
  | .vvmerge c => encC 0xEE c
  | .vsmerge c x => encCQ 0xEF c x
  | .vvgtrf q va vb => encC 0xC4 (Cntrl.vvCmp q va vb .gtr)
  | .vveqlf q va vb => encC 0xC4 (Cntrl.vvCmp q va vb .eql)
  | .vvlssf q va vb => encC 0xC4 (Cntrl.vvCmp q va vb .lss)
  | .vvleqf q va vb => encC 0xC4 (Cntrl.vvCmp q va vb .leq)
  | .vvneqf q va vb => encC 0xC4 (Cntrl.vvCmp q va vb .neq)
  | .vvgeqf q va vb => encC 0xC4 (Cntrl.vvCmp q va vb .geq)
  | .vsgtrf q x vb => encCL 0xC5 (Cntrl.vsCmp q vb .gtr) x
  | .vseqlf q x vb => encCL 0xC5 (Cntrl.vsCmp q vb .eql) x
  | .vslssf q x vb => encCL 0xC5 (Cntrl.vsCmp q vb .lss) x
  | .vsleqf q x vb => encCL 0xC5 (Cntrl.vsCmp q vb .leq) x
  | .vsneqf q x vb => encCL 0xC5 (Cntrl.vsCmp q vb .neq) x
  | .vsgeqf q x vb => encCL 0xC5 (Cntrl.vsCmp q vb .geq) x
  | .vvgtrd q va vb => encC 0xC6 (Cntrl.vvCmp q va vb .gtr)
  | .vveqld q va vb => encC 0xC6 (Cntrl.vvCmp q va vb .eql)
  | .vvlssd q va vb => encC 0xC6 (Cntrl.vvCmp q va vb .lss)
  | .vvleqd q va vb => encC 0xC6 (Cntrl.vvCmp q va vb .leq)
  | .vvneqd q va vb => encC 0xC6 (Cntrl.vvCmp q va vb .neq)
  | .vvgeqd q va vb => encC 0xC6 (Cntrl.vvCmp q va vb .geq)
  | .vsgtrd q x vb => encCQ 0xC7 (Cntrl.vsCmp q vb .gtr) x
  | .vseqld q x vb => encCQ 0xC7 (Cntrl.vsCmp q vb .eql) x
  | .vslssd q x vb => encCQ 0xC7 (Cntrl.vsCmp q vb .lss) x
  | .vsleqd q x vb => encCQ 0xC7 (Cntrl.vsCmp q vb .leq) x
  | .vsneqd q x vb => encCQ 0xC7 (Cntrl.vsCmp q vb .neq) x
  | .vsgeqd q x vb => encCQ 0xC7 (Cntrl.vsCmp q vb .geq) x
  | .vvgtrg q va vb => encC 0xC2 (Cntrl.vvCmp q va vb .gtr)
  | .vveqlg q va vb => encC 0xC2 (Cntrl.vvCmp q va vb .eql)
  | .vvlssg q va vb => encC 0xC2 (Cntrl.vvCmp q va vb .lss)
  | .vvleqg q va vb => encC 0xC2 (Cntrl.vvCmp q va vb .leq)
  | .vvneqg q va vb => encC 0xC2 (Cntrl.vvCmp q va vb .neq)
  | .vvgeqg q va vb => encC 0xC2 (Cntrl.vvCmp q va vb .geq)
  | .vsgtrg q x vb => encCQ 0xC3 (Cntrl.vsCmp q vb .gtr) x
  | .vseqlg q x vb => encCQ 0xC3 (Cntrl.vsCmp q vb .eql) x
  | .vslssg q x vb => encCQ 0xC3 (Cntrl.vsCmp q vb .lss) x
  | .vsleqg q x vb => encCQ 0xC3 (Cntrl.vsCmp q vb .leq) x
  | .vsneqg q x vb => encCQ 0xC3 (Cntrl.vsCmp q vb .neq) x
  | .vsgeqg q x vb => encCQ 0xC3 (Cntrl.vsCmp q vb .geq) x
  | .vvgtrl q va vb => encC 0xC0 (Cntrl.vvCmp q va vb .gtr)
  | .vveqll q va vb => encC 0xC0 (Cntrl.vvCmp q va vb .eql)
  | .vvlssl q va vb => encC 0xC0 (Cntrl.vvCmp q va vb .lss)
  | .vvleql q va vb => encC 0xC0 (Cntrl.vvCmp q va vb .leq)
  | .vvneql q va vb => encC 0xC0 (Cntrl.vvCmp q va vb .neq)
  | .vvgeql q va vb => encC 0xC0 (Cntrl.vvCmp q va vb .geq)
  | .vsgtrl q x vb => encCL 0xC1 (Cntrl.vsCmp q vb .gtr) x
  | .vseqll q x vb => encCL 0xC1 (Cntrl.vsCmp q vb .eql) x
  | .vslssl q x vb => encCL 0xC1 (Cntrl.vsCmp q vb .lss) x
  | .vsleql q x vb => encCL 0xC1 (Cntrl.vsCmp q vb .leq) x
  | .vsneql q x vb => encCL 0xC1 (Cntrl.vsCmp q vb .neq) x
  | .vsgeql q x vb => encCL 0xC1 (Cntrl.vsCmp q vb .geq) x
  | .vvcvtlf u q vb vc => encC 0xEC (Cntrl.cvt .cvtlf u q vb vc)
  | .vvcvtld u q vb vc => encC 0xEC (Cntrl.cvt .cvtld u q vb vc)
  | .vvcvtlg u q vb vc => encC 0xEC (Cntrl.cvt .cvtlg u q vb vc)
  | .vvcvtfl u q vb vc => encC 0xEC (Cntrl.cvt .cvtfl u q vb vc)
  | .vvcvtrfl u q vb vc => encC 0xEC (Cntrl.cvt .cvtrfl u q vb vc)
  | .vvcvtfd u q vb vc => encC 0xEC (Cntrl.cvt .cvtfd u q vb vc)
  | .vvcvtfg u q vb vc => encC 0xEC (Cntrl.cvt .cvtfg u q vb vc)
  | .vvcvtdl u q vb vc => encC 0xEC (Cntrl.cvt .cvtdl u q vb vc)
  | .vvcvtdf u q vb vc => encC 0xEC (Cntrl.cvt .cvtdf u q vb vc)
  | .vvcvtrdl u q vb vc => encC 0xEC (Cntrl.cvt .cvtrdl u q vb vc)
  | .vvcvtgl u q vb vc => encC 0xEC (Cntrl.cvt .cvtgl u q vb vc)
  | .vvcvtgf u q vb vc => encC 0xEC (Cntrl.cvt .cvtgf u q vb vc)
  | .vvcvtrgl u q vb vc => encC 0xEC (Cntrl.cvt .cvtrgl u q vb vc)
  | .mfvcr d => encRW 0x31 regnumVCR d
  | .mfvlr d => encRW 0x31 regnumVLR d
  | .mfvmrlo d => encRW 0x31 regnumVMRLO d
  | .mfvmrhi d => encRW 0x31 regnumVMRHI d
  | .synch d => encRW 0x31 regnumSYNC d
  | .msynch d => encRW 0x31 regnumMSYNC d
  | .mtvcr x => encRL 0xA9 regnumVCR x
  | .mtvlr x => encRL 0xA9 regnumVLR x
  | .mtvmrlo x => encRL 0xA9 regnumVMRLO x
  | .mtvmrhi x => encRL 0xA9 regnumVMRHI x
  | .vsynch => encR 0xA8 0
  | .vsmergef t x vb vc => encCQ 0xEF (Cntrl.vsMerge t vb vc) x
  | .vsmerged t x vb vc => encCQ 0xEF (Cntrl.vsMerge t vb vc) x
  | .vsmergeg t x vb vc => encCQ 0xEF (Cntrl.vsMerge t vb vc) x

/-! ### Table-numbered instructions -/

/-- Operand values taken from `w`, 16, 32 or 64 bits each in the operands' order, laid out as the hardware stores them:
each behind the specifier byte of the mode the encoder uses, a destination as a register (log 40, 46). -/
def layOperands : List OperandKind → Nat → List Byte
  | [], _ => []
  | .rw :: ks, w => immWord (BitVec.ofNat 16 w) ++ layOperands ks (w / 2 ^ 16)
  | .rl :: ks, w => immLong (BitVec.ofNat 32 w) ++ layOperands ks (w / 2 ^ 32)
  | .rq :: ks, w => immQuad (BitVec.ofNat 64 w) ++ layOperands ks (w / 2 ^ 64)
  | .ab :: ks, w => absAddr (BitVec.ofNat 32 w) ++ layOperands ks (w / 2 ^ 32)
  | .wl :: ks, w => BitVec.ofNat 8 (0x50 + w % 16) :: layOperands ks (w / 2 ^ 32)

/-- The bytes of the instruction whose table-numbered bits are the low `nbits` of `w`: the opcode word, FD in bits 7:0
and the second byte in bits 15:8 (R12, R81), then the operand values. -/
def tableBytes (nbits w : Nat) : List Byte :=
  let w := w % 2 ^ nbits
  let op := [BitVec.ofNat 8 w, BitVec.ofNat 8 (w / 2 ^ 8)]
  match findRow (w / 2 ^ 8 % 2 ^ 8) with
  | none => op
  | some b => op ++ layOperands b.kinds (w / 2 ^ 16)

/-- The instruction the decoder reads from the instruction whose bits, numbered as spec/opcode_table.json numbers them,
are `w`. -/
def decodeTableWord (nbits w : Nat) : Option Instr :=
  match decode (tableBytes nbits w) with
  | .ok (i, _) => some i
  | .error _ => none

end Sys2Proof
end

