-- ==== Sys2Proof/Machine/State.lean ====
section
/-! DEFINITION. The state of the machine, the ways a step can stop, and the state at reset. -/

namespace Sys2Proof.Machine

/-- Memory: (address, byte) pairs in one canonical form, addresses strictly rising, no entry equal to what an unlisted
address reads as (`Memory.wf`). -/
abbrev Memory := List Host.Cell

/-- The kind of a memory access that `access_check` is asked about: a read, with the modify-intent flag, or a write
(R60, R65). -/
inductive AccessKind where
  | read (mi : Bool)
  | write
  deriving DecidableEq, Repr

/-- What `access_check` answers (R60). -/
inductive AccessAnswer where
  | ok
  | accessControlViolation
  | translationNotValid
  | modify
  deriving DecidableEq, Repr

/-- One rule of the run's `access_check` (R8, R60; log 24): the answer for accesses to an address from `first` to
`last`, of a size and a kind or of any. -/
structure AccessRule where
  first : Address
  last : Address
  size : Option Nat
  kind : Option AccessKind
  answer : AccessAnswer
  deriving DecidableEq, Repr

/-- A range of addresses, both ends in it. -/
structure AddrRange where
  first : Address
  last : Address
  deriving DecidableEq, Repr

/-- The state of the machine (R15, R20, R32, R33) with the parameters of a run that a step reads (R8). -/
structure State where
  /-- V0 to V15, elements 0 to 63 (R21, R22, R23) -/
  v : Vector (Vector Element NELEM) NVREG
  /-- VLR, the Vector Length Register (R26) -/
  vlr : BitVec 7
  /-- VCR, the Vector Count Register (R27) -/
  vcr : BitVec 7
  /-- VMR, the Vector Mask Register (R28) -/
  vmr : BitVec 64
  /-- data memory (R36, R50) -/
  mem : Memory
  /-- the address of the first opcode byte of the instruction being executed (R33) -/
  pc : Address
  /-- the scalar general registers R0 to R14 (R32, general knowledge; log 35) -/
  r : Vector Longword 15
  /-- the program text, apart from data memory: a parameter of the run (R64; log 2) -/
  text : List Byte
  /-- the address of the first byte of the program text: a parameter of the run (R64; log 2) -/
  textBase : Address
  /-- the run's `access_check`: the first rule that covers an access answers, and ok if none does (R60; log 24) -/
  access : List AccessRule
  /-- the regions the platform declares as device space (R58; log 25) -/
  devices : List AddrRange
  /-- the MODEL's own field: how many values have been drawn; the next is `Config.draw32 draws` (R11; log 7) -/
  draws : Nat
  deriving DecidableEq, Repr

/-- The nine exceptions of R402, the four memory ones with the address recorded. -/
inductive Exc where
  /-- floating overflow (R405): floating arithmetic and VVCVT -/
  | floatingOverflow
  /-- floating underflow (R406): floating arithmetic and VVCVT, when EXC = 1 -/
  | floatingUnderflow
  /-- floating reserved operand (R407): floating arithmetic, VVCVT and the floating compares -/
  | floatingReservedOperand
  /-- floating divide by zero (R408): the floating divides -/
  | floatingDivideByZero
  /-- integer overflow (R409): longword add, subtract and multiply, and VVCVT, when EXC = 1 -/
  | integerOverflow
  /-- access control violation (R410): the eight memory instructions -/
  | accessControlViolation (a : Address)
  /-- translation not valid (R411): the eight memory instructions -/
  | translationNotValid (a : Address)
  /-- vector alignment (R413): the eight memory instructions -/
  | vectorAlignment (a : Address)
  /-- modify (R412): the four store instructions -/
  | modify (a : Address)
  deriving DecidableEq, Repr

/-- How a run ends in a fault. -/
inductive Fault where
  /-- `Fault(e, i, a)` of R401: exception `e` (with its address) at element `i`, raised by `raise`; `left` is the state R403
  describes, elements below `i` done, which no claim about hardware may rely on. Safe: the spec makes a fault final
  (R401, R417; log 12). -/
  | raised (e : Exc) (i : ElemIx) (left : State)
  /-- The byte level's own fault, distinct from the nine (R426): a scalar operand's memory access that `access_check` does
  not answer ok, raised by operand evaluation. Safe: the run stops (log 37). -/
  | scalarOperand (a : Address) (answer : AccessAnswer)
  deriving DecidableEq, Repr

/-- Why the machine gives an instruction no next state. None is an exception (R430). -/
inductive Refusal where
  /-- an instruction whose meaning is not written; raised by `exec`'s arms alone; safe -/
  | notModelled (mnemonic : String)
  /-- the bytes at the pc are no instruction of this spec (R102, R104); raised by `step`; safe -/
  | undecodable (e : DecodeError)
  /-- the instruction's bytes would cross address 2^32 (R33); raised by `step`; safe -/
  | crossesTop
  /-- a control-word field drawn as 0 that is not 0 (R88); raised by every instruction with a control word; safe -/
  | nonzeroMbzField
  /-- `cntrl<3>` of a compare is 1 (R280): the source says UNPREDICTABLE; raised by the compares; safe -/
  | vcmpCntrl3
  /-- `cntrl<2:0>` of a compare is 3 or 7, Reserved (R280); raised by the compares; safe -/
  | reservedCmpFunc
  /-- `cntrl<11:8>` of VVCVT is 0000, 1011 or 1110, Reserved (R365); raised by VVCVT; safe -/
  | reservedCvtFunc
  /-- a Reserved `regnum` (R149, R155, R161); raised by MFVP, MTVP and VSYNC; safe -/
  | reservedRegnum
  /-- MTVP writes VCR with a value above 127 (R151); raised by MTVP; safe -/
  | vcrOutOfRange
  /-- MTVP writes VLR with a value above 64 (R152); raised by MTVP; safe -/
  | vlrOutOfRange
  /-- an access to a region the platform declares as device space (R58); raised by loads, stores and scalar operands; safe -/
  | deviceSpace (a : Address)
  /-- a store whose bytes overlap the program text (R64); raised by stores and MFVP with a memory destination; safe -/
  | storeToProgramText (a : Address)
  deriving DecidableEq, Repr

/-- What a step, an instruction or one of its elements answers. -/
abbrev Outcome := Host.Outcome State Fault Refusal

/-- The machine right after reset. The spec states no reset value of anything (R38, R440): every value here is the
model's choice, named in the log (20, 21, 22, 24, 25, 35). -/
def State.reset : State where
  v := Vector.replicate NVREG (Vector.replicate NELEM ⟨0, 0⟩)
  vlr := 0
  vcr := 0
  vmr := 0
  mem := []
  pc := 0
  r := Vector.replicate 15 0
  text := []
  textBase := 0
  access := []
  devices := []
  draws := 0

end Sys2Proof.Machine
end

