-- ==== Sys2Proof/Machine/Ops.lean ====
section
/-! DEFINITION. The named operations over registers, mask and memory, raising an exception, and the element loops that
every instruction is one of. -/

namespace Sys2Proof.Machine

/-! ### Memory bytes -/

/-- What an address that memory does not list reads as. DESIGN CHOICE, log 21: the spec leaves start memory
unspecified (R38). -/
def Memory.unlisted : Byte := 0

/-- The byte at an address (R50, R58). -/
def Memory.read : Memory → Nat → Byte
  | [], _ => Memory.unlisted
  | (b, w) :: m, a => if a = b then w else if a < b then Memory.unlisted else Memory.read m a

/-- Memory with one byte stored, in canonical form again. -/
def Memory.write : Memory → Nat → Byte → Memory
  | [], a, x => if x = Memory.unlisted then [] else [(a, x)]
  | (b, w) :: m, a, x =>
    if a = b then (if x = Memory.unlisted then m else (a, x) :: m)
    else if a < b then (if x = Memory.unlisted then (b, w) :: m else (a, x) :: (b, w) :: m)
    else (b, w) :: Memory.write m a x

/-- The canonical form from an address on: addresses at least `lo`, strictly rising and below 2^32, no entry equal to
what an unlisted address reads as. -/
def Memory.wfFrom : Nat → Memory → Bool
  | _, [] => true
  | lo, (b, w) :: m => decide (lo ≤ b) && decide (b < 2 ^ 32) && decide (w ≠ Memory.unlisted) && Memory.wfFrom (b + 1) m

/-- The canonical form of memory. -/
def Memory.wf (m : Memory) : Bool := Memory.wfFrom 0 m

/-- The byte at an address of the machine (R50). -/
def State.byte (s : State) (a : Address) : Byte := Memory.read s.mem a.toNat

/-- The longword at an address, little-endian: byte `k` of the value at `a + k` (R51). -/
def State.readL (s : State) (a : Address) : Longword :=
  longOfBytes (s.byte a) (s.byte (a + 1)) (s.byte (a + 2)) (s.byte (a + 3))

/-- The quadword at an address as an element: its low half is the longword at the address (R51). -/
def State.readQ (s : State) (a : Address) : Element := ⟨s.readL (a + 4), s.readL a⟩

/-- The word at an address (R51). -/
def State.readW (s : State) (a : Address) : Word := wordOfBytes (s.byte a) (s.byte (a + 1))

/-- The state with one byte of memory stored. -/
def State.writeByte (s : State) (a : Address) (x : Byte) : State :=
  { s with mem := Memory.write s.mem a.toNat x }

/-- The state with a longword stored, byte `k` of it at `a + k` (R51). -/
def State.writeL (s : State) (a : Address) (x : Longword) : State :=
  (((s.writeByte a (byteOf x 0)).writeByte (a + 1) (byteOf x 1)).writeByte (a + 2) (byteOf x 2)).writeByte (a + 3) (byteOf x 3)

/-- The state with an element's 64 bits stored: the low half at the address, the high half 4 above (R51). -/
def State.writeQ (s : State) (a : Address) (e : Element) : State := (s.writeL a e.lo).writeL (a + 4) e.hi

/-! ### Registers -/

/-- Element `i` of vector register `n` (R11, R22). -/
def State.elem (s : State) (n : VReg) (i : ElemIx) : Element := (s.v[n])[i]

/-- The state with an element of a vector register written, all 64 bits (R11). -/
def State.setElem (s : State) (n : VReg) (i : ElemIx) (e : Element) : State :=
  { s with v := s.v.set n ((s.v[n]).set i e) }

/-- The state with bits 31:0 of an element written and bits 63:32 drawn: any value, not necessarily the old one and not
necessarily zero (R24; log 7). -/
def State.setLow (s : State) (n : VReg) (i : ElemIx) (x : Longword) : State :=
  { s.setElem n i ⟨Config.draw32 s.draws, x⟩ with draws := s.draws + 1 }

/-- Bit `i` of VMR (R28). -/
def State.maskBit (s : State) (i : ElemIx) : Bool := s.vmr.getLsbD i.val

/-- A 64-bit mask with one bit replaced. -/
def setMaskBit (m : BitVec 64) (i : ElemIx) (b : Bool) : BitVec 64 :=
  if b then m ||| (1#64 <<< i.val) else m &&& ~~~(1#64 <<< i.val)

/-- The state with bit `i` of VMR written (R28). -/
def State.setMaskBit (s : State) (i : ElemIx) (b : Bool) : State := { s with vmr := Machine.setMaskBit s.vmr i b }

/-- The mask predicate: `cntrl.MOE = 0 or VMR[i] = cntrl.MTF` (R11, R30). -/
def enabled (c : Cntrl) (s : State) (i : ElemIx) : Bool := !c.moe || (s.maskBit i == c.mtf)

/-- The selector of VMERGE and IOTA: `VMR[i] = cntrl.MTF`, with no MOE (R30). -/
def selected (c : Cntrl) (s : State) (i : ElemIx) : Bool := s.maskBit i == c.mtf

/-- The elements a loop runs over: 0 to VLR-1, rising (R10, R26). -/
def State.elements (s : State) : List ElemIx := (List.finRange NELEM).filter fun i => decide (i.val < s.vlr.toNat)

/-- A scalar general register (R32). -/
def State.reg (s : State) (n : Fin 15) : Longword := s.r[n]

/-- The state with a scalar general register written (R32). -/
def State.setReg (s : State) (n : Fin 15) (x : Longword) : State := { s with r := s.r.set n x }

/-- What general register `n` reads as while an operand is evaluated, R15 being `r15` then (R32; log 36). -/
def State.general (s : State) (r15 : Longword) (n : GReg) : Longword :=
  if h : n.val < 15 then s.reg ⟨n.val, h⟩ else r15

/-- The state with general register `n` written. What is written to R15 does not last: an instruction that completes sets the
pc to the byte after its last operand specifier (R33; log 36, 38). -/
def State.setGeneral (s : State) (n : GReg) (x : Longword) : State :=
  if h : n.val < 15 then s.setReg ⟨n.val, h⟩ x else s

/-! ### Exceptions -/

/-- Raising an exception at element `i`: the instruction stops at once and the run ends in `Fault(e, i, a)`; nothing is
saved, no mode changes, no address receives control, and there is no return (R401, R403, R416, R417; log 12). -/
def raise (e : Exc) (i : ElemIx) (s : State) : Outcome := .fault (.raised e i s)

/-! ### Memory access checks -/

/-- Whether a rule answers for an access. A read is never answered `modify` (R60, R309), so a rule with that answer
covers writes alone. -/
def AccessRule.covers (u : AccessRule) (a : Address) (n : Nat) (k : AccessKind) : Bool :=
  decide (u.first.toNat ≤ a.toNat) && decide (a.toNat ≤ u.last.toNat) &&
    (u.size == none || u.size == some n) && (u.kind == none || u.kind == some k) &&
    !(u.answer == .modify && k != .write)

/-- `access_check(addr, n, kind, mi)` of R60. -/
def accessCheck (s : State) (a : Address) (n : Nat) (k : AccessKind) : AccessAnswer :=
  match s.access.find? fun u => u.covers a n k with
  | some u => u.answer
  | none => .ok

/-- Whether an address range holds an address. -/
def AddrRange.holds (g : AddrRange) (a : Address) : Bool :=
  decide (g.first.toNat ≤ a.toNat) && decide (a.toNat ≤ g.last.toNat)

/-- Whether one of the `n` bytes from `a` lies in device space (R58). -/
def inDeviceSpace (s : State) (a : Address) (n : Nat) : Bool :=
  (List.range n).any fun k => s.devices.any fun g => g.holds (a + BitVec.ofNat 32 k)

/-- Whether an address holds a byte of the program text (R64). -/
def inText (s : State) (a : Address) : Bool :=
  decide (s.textBase.toNat ≤ a.toNat) && decide (a.toNat < s.textBase.toNat + s.text.length)

/-- Whether one of the `n` bytes from `a` lies in the program text (R64). -/
def overlapsText (s : State) (a : Address) (n : Nat) : Bool :=
  (List.range n).any fun k => inText s (a + BitVec.ofNat 32 k)

/-- Whether one element's access may be made, and how it stops if not. -/
inductive Access where
  | ok
  | raise (e : Exc)
  | refuse (r : Refusal)
  deriving DecidableEq, Repr

/-- The tests before a processed element's load (R309): alignment first (R54, R413), then `access_check` (R60), then
device space (R58), a place in the order that is a DESIGN CHOICE (log 25). -/
def checkLoad (s : State) (a : Address) (n : Nat) (mi : Bool) : Access :=
  if a.toNat % n ≠ 0 then .raise (.vectorAlignment a)
  else
    match accessCheck s a n (.read mi) with
    | .accessControlViolation => .raise (.accessControlViolation a)
    | .translationNotValid => .raise (.translationNotValid a)
    | _ => if inDeviceSpace s a n then .refuse (.deviceSpace a) else .ok

/-- The tests before a processed element's store (R309): alignment, `access_check`, device space, and the program text,
which a vector store may not overlap (R64; log 2). DESIGN CHOICE, log 25: the spec gives the last two no place in the order;
the model tests them element by element, after alignment and `access_check`, the program text last. -/
def checkStore (s : State) (a : Address) (n : Nat) : Access :=
  if a.toNat % n ≠ 0 then .raise (.vectorAlignment a)
  else
    match accessCheck s a n .write with
    | .accessControlViolation => .raise (.accessControlViolation a)
    | .translationNotValid => .raise (.translationNotValid a)
    | .modify => .raise (.modify a)
    | .ok =>
      if inDeviceSpace s a n then .refuse (.deviceSpace a)
      else if overlapsText s a n then .refuse (.storeToProgramText a)
      else .ok

/-! ### Element loops -/

/-- The element loop (R10, R57): the body for each element in order, stopping at the first that faults or is refused. -/
def forElements (body : ElemIx → State → Outcome) : List ElemIx → State → Outcome
  | [], s => .next s
  | i :: is, s =>
    match body i s with
    | .next s' => forElements body is s'
    | .fault r => .fault r
    | .refused r => .refused r

/-- What an instruction that writes a vector register computes for one element: a 32-bit result, a 64-bit one, or a
stop. -/
inductive ElemRes where
  | low (x : Longword)
  | whole (e : Element)
  | raise (e : Exc)
  | refuse (r : Refusal)
  deriving DecidableEq, Repr

/-- A datum of a type as an element's result: bits 31:0 for L and F, the whole element for D and G (R24, R48, R171,
R351). -/
def ElemRes.datum : (t : DType) → BitVec t.width → ElemRes
  | .l, x => .low x
  | .f, x => .low x
  | .d, x => .whole (.ofQ x)
  | .g, x => .whole (.ofQ x)

/-- The datum of a type in an element: bits 31:0 for L and F, bits 63:0 for D and G (R48). -/
def elemDatum (e : Element) : (t : DType) → BitVec t.width
  | .l => e.lo
  | .f => e.lo
  | .d => e.q
  | .g => e.q

/-- One iteration of an instruction that writes a vector register: nothing for an element that is not processed;
otherwise element `i` of Vc receives the result computed from element `i` of the registers as they stand (R25, R47). -/
def registerElem (sel : ElemIx → Bool) (vc : VReg) (f : ElemIx → (VReg → Element) → ElemRes)
    (i : ElemIx) (s : State) : Outcome :=
  if sel i then
    match f i (fun n => s.elem n i) with
    | .low x => .next (s.setLow vc i x)
    | .whole e => .next (s.setElem vc i e)
    | .raise e => raise e i s
    | .refuse r => .refused r
  else .next s

/-- An instruction that writes elements of register `vc`: for `i` from 0 to VLR-1, the processed elements (R25, R47). -/
def registerLoop (sel : ElemIx → Bool) (vc : VReg) (f : ElemIx → (VReg → Element) → ElemRes) (s : State) : Outcome :=
  forElements (registerElem sel vc f) s.elements s

/-- What a compare computes for one element: the mask bit, or an exception (R272). -/
inductive CmpRes where
  | bit (b : Bool)
  | raise (e : Exc)
  deriving DecidableEq, Repr

/-- One iteration of a compare: `VMR<i>` of a processed element receives the outcome (R272, R293). -/
def compareElem (sel : ElemIx → Bool) (f : (VReg → Element) → CmpRes) (i : ElemIx) (s : State) : Outcome :=
  if sel i then
    match f (fun n => s.elem n i) with
    | .bit b => .next (s.setMaskBit i b)
    | .raise e => raise e i s
  else .next s

/-- A compare instruction: `sel` is the mask predicate on VMR as it was before the instruction, which is what each
element's own test reads, since element `i` reads and writes bit `i` alone (R30, R272). -/
def compareLoop (sel : ElemIx → Bool) (f : (VReg → Element) → CmpRes) (s : State) : Outcome :=
  forElements (compareElem sel f) s.elements s

/-- The width of a memory element (R52). -/
inductive MemWidth where
  | long | quad
  deriving DecidableEq, Repr

/-- Bytes moved per processed element (R52). -/
def MemWidth.bytes : MemWidth → Nat
  | .long => 4
  | .quad => 8

/-- `load_elem(addr, n, mi)` of R309: the datum for the element, bits 63:32 drawn for a longword (R24, R301, R303). -/
def loadElem (s : State) (w : MemWidth) (mi : Bool) (a : Address) : ElemRes :=
  match checkLoad s a w.bytes mi with
  | .raise e => .raise e
  | .refuse r => .refuse r
  | .ok =>
    match w with
    | .long => .low (s.readL a)
    | .quad => .whole (s.readQ a)

/-- The state with an element stored at an address: bits 31:0 for a longword, all 64 for a quadword (R52). -/
def State.writeElem (s : State) (w : MemWidth) (a : Address) (e : Element) : State :=
  match w with
  | .long => s.writeL a e.lo
  | .quad => s.writeQ a e

/-- `store_elem(addr, n, v)` of R309. -/
def storeElem (w : MemWidth) (a : Address) (e : Element) (i : ElemIx) (s : State) : Outcome :=
  match checkStore s a w.bytes with
  | .ok => .next (s.writeElem w a e)
  | .raise x => raise x i s
  | .refuse r => .refused r

/-- One iteration of a store: a processed element of Vc goes to its address (R305 to R308). -/
def storeLoopElem (sel : ElemIx → Bool) (w : MemWidth) (addr : ElemIx → Address) (vc : VReg)
    (i : ElemIx) (s : State) : Outcome :=
  if sel i then storeElem w (addr i) (s.elem vc i) i s else .next s

/-- A store instruction: the accesses in ascending element order (R57). -/
def storeLoop (sel : ElemIx → Bool) (w : MemWidth) (addr : ElemIx → Address) (vc : VReg) (s : State) : Outcome :=
  forElements (storeLoopElem sel w addr vc) s.elements s

/-- The address of element `i` of a strided access: `(base + i * stride) mod 2^32` (R53). -/
def stridedAddr (base : Address) (stride : Longword) (i : ElemIx) : Address := base + BitVec.ofNat 32 i.val * stride

/-- The address of element `i` of an indexed access: `(base + Vb[i]<31:0>) mod 2^32`, an unscaled byte offset (R53). -/
def indexedAddr (base : Address) (e : Element) : Address := base + e.lo

/-! ### Refusals decided before any element is processed (R414) -/

/-- An instruction whose must-be-zero fields are tested first (R88). -/
def checkedMbz (mask c : Cntrl) (body : Outcome) : Outcome :=
  if Cntrl.zeroUnder mask c then body else .refused .nonzeroMbzField

end Sys2Proof.Machine
end

