-- ==== Sys2Proof/Machine/Flags.lean ====
section
/-! DEFINITION. Integer results and their overflow, and the relation a compare writes into VMR. The machine has no other
flags: there are no condition codes (R34; log 26). -/

namespace Sys2Proof.Machine

/-- The longword operations of R221. -/
inductive IOp where
  | add | sub | mul
  deriving DecidableEq, Repr

/-- The exact result, both operands read as two's-complement (R221). -/
def IOp.exact (op : IOp) (x y : Longword) : Int :=
  match op with
  | .add => x.toInt + y.toInt
  | .sub => x.toInt - y.toInt
  | .mul => x.toInt * y.toInt

/-- The stored result, the low-order 32 bits of the exact one: `add32`, `sub32`, `mul32` (R221). -/
def IOp.result (op : IOp) (x y : Longword) : Longword :=
  match op with
  | .add => x + y
  | .sub => x - y
  | .mul => x * y

/-- A mathematical integer outside -2^31 to 2^31-1 (R221, R366, R409). -/
def outsideLongword (n : Int) : Bool := decide (n < -2 ^ 31) || decide (2 ^ 31 - 1 < n)

/-- Signed overflow: the exact result is outside -2^31 to 2^31-1 (R221). -/
def IOp.overflows (op : IOp) (x y : Longword) : Bool := outsideLongword (op.exact x y)

/-- How two integers stand to each other (R293). -/
def intOrder (a b : Int) : FPOrder := if a < b then .less else if a = b then .equal else .greater

/-- `holds(rel, o)` of R271: whether the relation holds of an ordering outcome. -/
def relHolds : Rel → FPOrder → Bool
  | .gtr, o => o == .greater
  | .eql, o => o == .equal
  | .lss, o => o == .less
  | .leq, o => o == .less || o == .equal
  | .neq, o => o == .less || o == .greater
  | .geq, o => o == .greater || o == .equal

end Sys2Proof.Machine
end

