-- ==== Sys2Proof/Machine/Float.lean ====
section
/-! DEFINITION. The intended VAX instance of the record `FP` (R42 to R46): the formats F_floating, D_floating and
G_floating, exact arithmetic rounded once, comparison and conversion. PRESUMED throughout: the spec gives it as general
knowledge (log 17, 18). -/

namespace Sys2Proof.Machine

/-- Exponent excess: 128 for F and D, 1024 for G (R42, R43, R44). -/
def fBias : FType → Nat
  | .f => 128
  | .d => 128
  | .g => 1024

/-- Width of the fraction field (R42, R43, R44). -/
def fFracBits : FType → Nat
  | .f => 23
  | .d => 55
  | .g => 52

/-- The largest exponent field (R45). -/
def fMaxExp : FType → Nat
  | .f => 255
  | .d => 255
  | .g => 2047

/-- The sign, bit 15 (R42, R43, R44). -/
def fSign : (t : FType) → BitVec t.dtype.width → Bool
  | .f, x => x.getLsbD 15
  | .d, x => x.getLsbD 15
  | .g, x => x.getLsbD 15

/-- The exponent field: bits 14:7 for F and D, 14:4 for G (R42, R43, R44). -/
def fExp : (t : FType) → BitVec t.dtype.width → Nat
  | .f, x => (x.extractLsb' 7 8).toNat
  | .d, x => (x.extractLsb' 7 8).toNat
  | .g, x => (x.extractLsb' 4 11).toNat

/-- The fraction, most significant part in the low word: `x[6:0] ++ x[31:16]` for F, and on through `x[63:48]` for D and
G (R42, R43, R44). -/
def fFrac : (t : FType) → BitVec t.dtype.width → Nat
  | .f, x => (x.extractLsb' 0 7 ++ x.extractLsb' 16 16).toNat
  | .d, x => (x.extractLsb' 0 7 ++ x.extractLsb' 16 16 ++ x.extractLsb' 32 16 ++ x.extractLsb' 48 16).toNat
  | .g, x => (x.extractLsb' 0 4 ++ x.extractLsb' 16 16 ++ x.extractLsb' 32 16 ++ x.extractLsb' 48 16).toNat

/-- The datum with a sign, an exponent field and a fraction (R42, R43, R44). -/
def fPack : (t : FType) → Bool → Nat → Nat → BitVec t.dtype.width
  | .f, s, e, m =>
    BitVec.ofNat 16 m ++ BitVec.ofBool s ++ BitVec.ofNat 8 e ++ BitVec.ofNat 7 (m / 2 ^ 16)
  | .d, s, e, m =>
    BitVec.ofNat 16 m ++ BitVec.ofNat 16 (m / 2 ^ 16) ++ BitVec.ofNat 16 (m / 2 ^ 32) ++
      BitVec.ofBool s ++ BitVec.ofNat 8 e ++ BitVec.ofNat 7 (m / 2 ^ 48)
  | .g, s, e, m =>
    BitVec.ofNat 16 m ++ BitVec.ofNat 16 (m / 2 ^ 16) ++ BitVec.ofNat 16 (m / 2 ^ 32) ++
      BitVec.ofBool s ++ BitVec.ofNat 11 e ++ BitVec.ofNat 4 (m / 2 ^ 48)

/-- What a floating datum stands for: a reserved operand, or the number `m * 2^k` with `m` signed (zero with `m = 0`). -/
inductive FVal where
  | reserved
  | num (m : Int) (k : Int)
  deriving DecidableEq, Repr

/-- The value of a datum: with exponent field 0, zero (sign 0) or a reserved operand (sign 1); otherwise
`(-1)^S * 2^(E - excess) * (2^n + f) / 2^(n+1)`, `n` the fraction's width (R42, R43, R44). -/
def fValue (t : FType) (x : BitVec t.dtype.width) : FVal :=
  if fExp t x = 0 then (if fSign t x then .reserved else .num 0 0)
  else
    let m : Int := 2 ^ fFracBits t + fFrac t x
    .num (if fSign t x then -m else m) ((fExp t x : Int) - fBias t - (fFracBits t + 1))

/-- The power of two that brings `n / d` to a significand of `p` bits, in [2^(p-1), 2^p). -/
def fShift (p n d : Nat) : Int :=
  let sh : Int := (p : Int) + Nat.log2 d - Nat.log2 n
  if 2 ^ p * (d * 2 ^ (-sh).toNat) ≤ n * 2 ^ sh.toNat then sh - 1 else sh

/-- `n / d` rounded to the nearest integer, a tie going up (R45, R46). -/
def roundDiv (n d : Nat) : Nat := (2 * n + d) / (2 * d)

/-- The real number `(-1)^neg * (n / d) * 2^k` as a datum: rounded to the precision of the type, to the nearest
representable magnitude, a tie away from zero; overflow if the rounded result needs an exponent field above the maximum,
underflow if it is non-zero and needs one below 1; an exact zero is the all-zero datum (R45). -/
def fRound (t : FType) (neg : Bool) (n d : Nat) (k : Int) : FPResult t.dtype.width :=
  if n = 0 then .value 0
  else
    let p := fFracBits t + 1
    let sh := fShift p n d
    let m := roundDiv (n * 2 ^ sh.toNat) (d * 2 ^ (-sh).toNat)
    let carry := decide (m = 2 ^ p)
    let frac := if carry then 0 else m - 2 ^ fFracBits t
    let e : Int := k - sh + fBias t + p + (if carry then 1 else 0)
    if (fMaxExp t : Int) < e then .overflow
    else if e < 1 then .underflow
    else .value (fPack t neg e.toNat frac)

/-- An integer times a power of two as a datum (R45). -/
def fRoundInt (t : FType) (m k : Int) : FPResult t.dtype.width := fRound t (decide (m < 0)) m.natAbs 1 k

/-- `m * 2^k` as an integer number of `2^k'`, for `k' ≤ k`. -/
def fScale (m k k' : Int) : Int := m * 2 ^ (k - k').toNat

/-- The exact sum, product and quotient, rounded once (R45). A reserved operand comes before a zero divisor (log 18). -/
def fArith (op : FOp) (t : FType) (x y : BitVec t.dtype.width) : FPResult t.dtype.width :=
  match fValue t x, fValue t y with
  | .num a j, .num b k =>
    match op with
    | .add => fRoundInt t (fScale a j (min j k) + fScale b k (min j k)) (min j k)
    | .sub => fRoundInt t (fScale a j (min j k) - fScale b k (min j k)) (min j k)
    | .mul => fRoundInt t (a * b) (j + k)
    | .div =>
      if b = 0 then .divideByZero
      else fRound t (decide (a < 0) != decide (b < 0)) a.natAbs b.natAbs (j - k)
  | _, _ => .reservedOperand

/-- The two real values compared; a reserved operand answers itself; all zeros are equal (R46). -/
def fCompare (t : FType) (x y : BitVec t.dtype.width) : FPOrder :=
  match fValue t x, fValue t y with
  | .num a j, .num b k =>
    let m := fScale a j (min j k)
    let n := fScale b k (min j k)
    if m < n then .less else if m = n then .equal else .greater
  | _, _ => .reservedOperand

/-- The integer `m * 2^k` comes to, truncated toward zero, or rounded to nearest with a tie away from zero (R46, R366). -/
def fToInt (rounded : Bool) (m k : Int) : Int :=
  let n := m.natAbs * 2 ^ k.toNat
  let d := 2 ^ (-k).toNat
  let q := if rounded then roundDiv n d else n / d
  if m < 0 then -(q : Int) else q

/-- A conversion to longword: integer overflow, with the low 32 bits of the integer, when it is outside -2^31 to 2^31-1
(R46, R366). -/
def fToLong (rounded : Bool) (t : FType) (x : BitVec t.dtype.width) : CvtResult 32 :=
  match fValue t x with
  | .reserved => .reservedOperand
  | .num m k =>
    let n := fToInt rounded m k
    if n < -2 ^ 31 ∨ 2 ^ 31 - 1 < n then .integerOverflow (BitVec.ofInt 32 n) else .value (BitVec.ofInt 32 n)

/-- A rounded result as a conversion's answer. -/
def toCvt {w : Nat} : FPResult w → CvtResult w
  | .value v => .value v
  | .overflow => .overflow
  | .underflow => .underflow
  | .reservedOperand => .reservedOperand
  | .divideByZero => .reservedOperand

/-- A conversion between floating types: the same value, rounded to the destination's precision (R46, R366). -/
def fToFloat (t u : FType) (x : BitVec t.dtype.width) : CvtResult u.dtype.width :=
  match fValue t x with
  | .reserved => .reservedOperand
  | .num m k => toCvt (fRoundInt u m k)

/-- The thirteen conversions (R352 to R364): Truncated, Rounded or exact as the table of R90 says. -/
def fConvert : (f : CvtFunc) → BitVec f.src.width → CvtResult f.dst.width
  | .cvtlf, x => toCvt (fRoundInt .f x.toInt 0)
  | .cvtld, x => toCvt (fRoundInt .d x.toInt 0)
  | .cvtlg, x => toCvt (fRoundInt .g x.toInt 0)
  | .cvtfl, x => fToLong false .f x
  | .cvtrfl, x => fToLong true .f x
  | .cvtfd, x => fToFloat .f .d x
  | .cvtfg, x => fToFloat .f .g x
  | .cvtdl, x => fToLong false .d x
  | .cvtdf, x => fToFloat .d .f x
  | .cvtrdl, x => fToLong true .d x
  | .cvtgl, x => fToLong false .g x
  | .cvtgf, x => fToFloat .g .f x
  | .cvtrgl, x => fToLong true .g x

/-- The intended instance of `FP` (R42 to R46), which "a model of a VAX should plug in" (R40). `FP.zero` is all zero bits
(R45). -/
def vaxFP : FP where
  op := fArith
  cmp := fCompare
  cvt := fConvert
  zero := fun _ => 0

end Sys2Proof.Machine
end

