-- ==== Sys2Proof/Machine/Compare.lean ====
section
/-! DEFINITION. VCMP and VCMPL: vector floating and integer compare (R270 to R294), with their 48 assembler mnemonics. -/

namespace Sys2Proof.Machine

/-- The refusals of a compare, then its element step with the relation of `cntrl<2:0>` (R88, R272, R280, R293; log 42). -/
def checkedCmp (mask c : Cntrl) (body : Rel → Outcome) : Outcome :=
  checkedMbz mask c
    (if c.cmpBit3 then .refused .vcmpCntrl3
     else
       match c.rel with
       | none => .refused .reservedCmpFunc
       | some rel => body rel)

/-- One element of a floating compare (R272, R281): the relation of the two values, or floating reserved operand (R407;
log 31). -/
def floatCmp (fp : FP) (t : FType) (rel : Rel) (x y : BitVec t.dtype.width) : CmpRes :=
  match fp.cmp t x y with
  | .reservedOperand => .raise .floatingReservedOperand
  | o => .bit (relHolds rel o)

/-- One element of an integer compare: both operands as two's-complement integers (R293; log 32). -/
def intCmp (rel : Rel) (x y : Longword) : CmpRes := .bit (relHolds rel (intOrder x.toInt y.toInt))

/-- The element step of the vector-vector floating compares (R272). -/
def vvCmpFloat (fp : FP) (t : FType) (c : Cntrl) (s : State) : Outcome :=
  checkedCmp mbzVVNoExc c fun rel =>
    compareLoop (enabled c s)
      (fun e => floatCmp fp t rel (elemDatum (e c.va) t.dtype) (elemDatum (e c.vb) t.dtype)) s

/-- The element step of the vector-scalar floating compares: the scalar is the left operand (R270, R272). -/
def vsCmpFloat (fp : FP) (t : FType) (c : Cntrl) (x : BitVec t.dtype.width) (s : State) : Outcome :=
  checkedCmp mbzVSNoExc c fun rel =>
    compareLoop (enabled c s) (fun e => floatCmp fp t rel x (elemDatum (e c.vb) t.dtype)) s

/-- The element step of VVCMPL (R293). -/
def vvCmpInt (c : Cntrl) (s : State) : Outcome :=
  checkedCmp mbzVVNoExc c fun rel =>
    compareLoop (enabled c s) (fun e => intCmp rel (e c.va).lo (e c.vb).lo) s

/-- The element step of VSCMPL: the scalar is the left operand (R292, R293). -/
def vsCmpInt (c : Cntrl) (x : Longword) (s : State) : Outcome :=
  checkedCmp mbzVSNoExc c fun rel =>
    compareLoop (enabled c s) (fun e => intCmp rel x (e c.vb).lo) s

/-- VVCMPF (R273). -/
def execVvcmpf (c : Cntrl) (s : State) : Outcome := vvCmpFloat vaxFP .f c s
/-- VSCMPF (R274). -/
def execVscmpf (c : Cntrl) (x : Longword) (s : State) : Outcome := vsCmpFloat vaxFP .f c x s
/-- VVCMPD (R275). -/
def execVvcmpd (c : Cntrl) (s : State) : Outcome := vvCmpFloat vaxFP .d c s
/-- VSCMPD (R276). -/
def execVscmpd (c : Cntrl) (x : Quadword) (s : State) : Outcome := vsCmpFloat vaxFP .d c x s
/-- VVCMPG (R277). -/
def execVvcmpg (c : Cntrl) (s : State) : Outcome := vvCmpFloat vaxFP .g c s
/-- VSCMPG (R278). -/
def execVscmpg (c : Cntrl) (x : Quadword) (s : State) : Outcome := vsCmpFloat vaxFP .g c x s
/-- VVCMPL, reconstructed (R290, R291; log 32). -/
def execVvcmpl (c : Cntrl) (s : State) : Outcome := vvCmpInt c s
/-- VSCMPL, reconstructed (R290, R292; log 32). -/
def execVscmpl (c : Cntrl) (x : Longword) (s : State) : Outcome := vsCmpInt c x s

/-! ### The assembler mnemonics: a compare with the control word the assembler builds (R116, R117, R279, R294) -/

/-- VVGTRF (R279). -/
def execVvgtrf (q : MaskQual) (va vb : VReg) (s : State) : Outcome := vvCmpFloat vaxFP .f (Cntrl.vvCmp q va vb .gtr) s
/-- VVEQLF (R279). -/
def execVveqlf (q : MaskQual) (va vb : VReg) (s : State) : Outcome := vvCmpFloat vaxFP .f (Cntrl.vvCmp q va vb .eql) s
/-- VVLSSF (R279). -/
def execVvlssf (q : MaskQual) (va vb : VReg) (s : State) : Outcome := vvCmpFloat vaxFP .f (Cntrl.vvCmp q va vb .lss) s
/-- VVLEQF (R279). -/
def execVvleqf (q : MaskQual) (va vb : VReg) (s : State) : Outcome := vvCmpFloat vaxFP .f (Cntrl.vvCmp q va vb .leq) s
/-- VVNEQF (R279). -/
def execVvneqf (q : MaskQual) (va vb : VReg) (s : State) : Outcome := vvCmpFloat vaxFP .f (Cntrl.vvCmp q va vb .neq) s
/-- VVGEQF (R279). -/
def execVvgeqf (q : MaskQual) (va vb : VReg) (s : State) : Outcome := vvCmpFloat vaxFP .f (Cntrl.vvCmp q va vb .geq) s
/-- VSGTRF (R279). -/
def execVsgtrf (q : MaskQual) (x : Longword) (vb : VReg) (s : State) : Outcome :=
  vsCmpFloat vaxFP .f (Cntrl.vsCmp q vb .gtr) x s
/-- VSEQLF (R279). -/
def execVseqlf (q : MaskQual) (x : Longword) (vb : VReg) (s : State) : Outcome :=
  vsCmpFloat vaxFP .f (Cntrl.vsCmp q vb .eql) x s
/-- VSLSSF (R279). -/
def execVslssf (q : MaskQual) (x : Longword) (vb : VReg) (s : State) : Outcome :=
  vsCmpFloat vaxFP .f (Cntrl.vsCmp q vb .lss) x s
/-- VSLEQF (R279). -/
def execVsleqf (q : MaskQual) (x : Longword) (vb : VReg) (s : State) : Outcome :=
  vsCmpFloat vaxFP .f (Cntrl.vsCmp q vb .leq) x s
/-- VSNEQF (R279). -/
def execVsneqf (q : MaskQual) (x : Longword) (vb : VReg) (s : State) : Outcome :=
  vsCmpFloat vaxFP .f (Cntrl.vsCmp q vb .neq) x s
/-- VSGEQF (R279). -/
def execVsgeqf (q : MaskQual) (x : Longword) (vb : VReg) (s : State) : Outcome :=
  vsCmpFloat vaxFP .f (Cntrl.vsCmp q vb .geq) x s
/-- VVGTRD (R279). -/
def execVvgtrd (q : MaskQual) (va vb : VReg) (s : State) : Outcome := vvCmpFloat vaxFP .d (Cntrl.vvCmp q va vb .gtr) s
/-- VVEQLD (R279). -/
def execVveqld (q : MaskQual) (va vb : VReg) (s : State) : Outcome := vvCmpFloat vaxFP .d (Cntrl.vvCmp q va vb .eql) s
/-- VVLSSD (R279). -/
def execVvlssd (q : MaskQual) (va vb : VReg) (s : State) : Outcome := vvCmpFloat vaxFP .d (Cntrl.vvCmp q va vb .lss) s
/-- VVLEQD (R279). -/
def execVvleqd (q : MaskQual) (va vb : VReg) (s : State) : Outcome := vvCmpFloat vaxFP .d (Cntrl.vvCmp q va vb .leq) s
/-- VVNEQD (R279). -/
def execVvneqd (q : MaskQual) (va vb : VReg) (s : State) : Outcome := vvCmpFloat vaxFP .d (Cntrl.vvCmp q va vb .neq) s
/-- VVGEQD (R279). -/
def execVvgeqd (q : MaskQual) (va vb : VReg) (s : State) : Outcome := vvCmpFloat vaxFP .d (Cntrl.vvCmp q va vb .geq) s
/-- VSGTRD (R279). -/
def execVsgtrd (q : MaskQual) (x : Quadword) (vb : VReg) (s : State) : Outcome :=
  vsCmpFloat vaxFP .d (Cntrl.vsCmp q vb .gtr) x s
/-- VSEQLD (R279). -/
def execVseqld (q : MaskQual) (x : Quadword) (vb : VReg) (s : State) : Outcome :=
  vsCmpFloat vaxFP .d (Cntrl.vsCmp q vb .eql) x s
/-- VSLSSD (R279). -/
def execVslssd (q : MaskQual) (x : Quadword) (vb : VReg) (s : State) : Outcome :=
  vsCmpFloat vaxFP .d (Cntrl.vsCmp q vb .lss) x s
/-- VSLEQD (R279). -/
def execVsleqd (q : MaskQual) (x : Quadword) (vb : VReg) (s : State) : Outcome :=
  vsCmpFloat vaxFP .d (Cntrl.vsCmp q vb .leq) x s
/-- VSNEQD (R279). -/
def execVsneqd (q : MaskQual) (x : Quadword) (vb : VReg) (s : State) : Outcome :=
  vsCmpFloat vaxFP .d (Cntrl.vsCmp q vb .neq) x s
/-- VSGEQD (R279). -/
def execVsgeqd (q : MaskQual) (x : Quadword) (vb : VReg) (s : State) : Outcome :=
  vsCmpFloat vaxFP .d (Cntrl.vsCmp q vb .geq) x s
/-- VVGTRG (R279). -/
def execVvgtrg (q : MaskQual) (va vb : VReg) (s : State) : Outcome := vvCmpFloat vaxFP .g (Cntrl.vvCmp q va vb .gtr) s
/-- VVEQLG (R279). -/
def execVveqlg (q : MaskQual) (va vb : VReg) (s : State) : Outcome := vvCmpFloat vaxFP .g (Cntrl.vvCmp q va vb .eql) s
/-- VVLSSG (R279). -/
def execVvlssg (q : MaskQual) (va vb : VReg) (s : State) : Outcome := vvCmpFloat vaxFP .g (Cntrl.vvCmp q va vb .lss) s
/-- VVLEQG (R279). -/
def execVvleqg (q : MaskQual) (va vb : VReg) (s : State) : Outcome := vvCmpFloat vaxFP .g (Cntrl.vvCmp q va vb .leq) s
/-- VVNEQG (R279). -/
def execVvneqg (q : MaskQual) (va vb : VReg) (s : State) : Outcome := vvCmpFloat vaxFP .g (Cntrl.vvCmp q va vb .neq) s
/-- VVGEQG (R279). -/
def execVvgeqg (q : MaskQual) (va vb : VReg) (s : State) : Outcome := vvCmpFloat vaxFP .g (Cntrl.vvCmp q va vb .geq) s
/-- VSGTRG (R279). -/
def execVsgtrg (q : MaskQual) (x : Quadword) (vb : VReg) (s : State) : Outcome :=
  vsCmpFloat vaxFP .g (Cntrl.vsCmp q vb .gtr) x s
/-- VSEQLG (R279). -/
def execVseqlg (q : MaskQual) (x : Quadword) (vb : VReg) (s : State) : Outcome :=
  vsCmpFloat vaxFP .g (Cntrl.vsCmp q vb .eql) x s
/-- VSLSSG (R279). -/
def execVslssg (q : MaskQual) (x : Quadword) (vb : VReg) (s : State) : Outcome :=
  vsCmpFloat vaxFP .g (Cntrl.vsCmp q vb .lss) x s
/-- VSLEQG (R279). -/
def execVsleqg (q : MaskQual) (x : Quadword) (vb : VReg) (s : State) : Outcome :=
  vsCmpFloat vaxFP .g (Cntrl.vsCmp q vb .leq) x s
/-- VSNEQG (R279). -/
def execVsneqg (q : MaskQual) (x : Quadword) (vb : VReg) (s : State) : Outcome :=
  vsCmpFloat vaxFP .g (Cntrl.vsCmp q vb .neq) x s
/-- VSGEQG (R279). -/
def execVsgeqg (q : MaskQual) (x : Quadword) (vb : VReg) (s : State) : Outcome :=
  vsCmpFloat vaxFP .g (Cntrl.vsCmp q vb .geq) x s
/-- VVGTRL (R294). -/
def execVvgtrl (q : MaskQual) (va vb : VReg) (s : State) : Outcome := vvCmpInt (Cntrl.vvCmp q va vb .gtr) s
/-- VVEQLL (R294). -/
def execVveqll (q : MaskQual) (va vb : VReg) (s : State) : Outcome := vvCmpInt (Cntrl.vvCmp q va vb .eql) s
/-- VVLSSL (R294). -/
def execVvlssl (q : MaskQual) (va vb : VReg) (s : State) : Outcome := vvCmpInt (Cntrl.vvCmp q va vb .lss) s
/-- VVLEQL (R294). -/
def execVvleql (q : MaskQual) (va vb : VReg) (s : State) : Outcome := vvCmpInt (Cntrl.vvCmp q va vb .leq) s
/-- VVNEQL (R294). -/
def execVvneql (q : MaskQual) (va vb : VReg) (s : State) : Outcome := vvCmpInt (Cntrl.vvCmp q va vb .neq) s
/-- VVGEQL (R294). -/
def execVvgeql (q : MaskQual) (va vb : VReg) (s : State) : Outcome := vvCmpInt (Cntrl.vvCmp q va vb .geq) s
/-- VSGTRL (R294). -/
def execVsgtrl (q : MaskQual) (x : Longword) (vb : VReg) (s : State) : Outcome := vsCmpInt (Cntrl.vsCmp q vb .gtr) x s
/-- VSEQLL (R294). -/
def execVseqll (q : MaskQual) (x : Longword) (vb : VReg) (s : State) : Outcome := vsCmpInt (Cntrl.vsCmp q vb .eql) x s
/-- VSLSSL (R294). -/
def execVslssl (q : MaskQual) (x : Longword) (vb : VReg) (s : State) : Outcome := vsCmpInt (Cntrl.vsCmp q vb .lss) x s
/-- VSLEQL (R294). -/
def execVsleql (q : MaskQual) (x : Longword) (vb : VReg) (s : State) : Outcome := vsCmpInt (Cntrl.vsCmp q vb .leq) x s
/-- VSNEQL (R294). -/
def execVsneql (q : MaskQual) (x : Longword) (vb : VReg) (s : State) : Outcome := vsCmpInt (Cntrl.vsCmp q vb .neq) x s
/-- VSGEQL (R294). -/
def execVsgeql (q : MaskQual) (x : Longword) (vb : VReg) (s : State) : Outcome := vsCmpInt (Cntrl.vsCmp q vb .geq) x s

end Sys2Proof.Machine
end

