-- ==== Sys2Proof/Machine/Operands.lean ====
section
/-! DEFINITION. The scalar side of an instruction: operand values from operand specifiers (R83), and where an MFVP result
goes (R142). The spec gives R83 as general knowledge; what it leaves open is in log 36 and 37. -/

namespace Sys2Proof.Machine

/-- What evaluating part of an operand answers: a value and the state it leaves, or a stop. -/
abbrev Resolved (α : Type) := Host.Outcome (α × State) Fault Refusal

/-- A scalar operand's access to `n` bytes: no byte may be device space, which is tested first, and `access_check` must answer
ok. No alignment is asked (PRESUMED, log 37). -/
def scalarAccess (s : State) (a : Address) (n : Nat) (k : AccessKind) : Access :=
  if inDeviceSpace s a n then .refuse (.deviceSpace a)
  else
    match accessCheck s a n k with
    | .accessControlViolation => .raise (.accessControlViolation a)
    | .translationNotValid => .raise (.translationNotValid a)
    | .modify => .raise (.modify a)
    | .ok => .ok

/-- A scalar read of `n` bytes at `a`, then `value`, or the byte level's own fault (R426; log 37). -/
def scalarRead {α : Type} (s : State) (a : Address) (n : Nat) (value : α) : Resolved α :=
  match scalarAccess s a n (.read false) with
  | .refuse r => .refused r
  | .raise _ => .fault (.scalarOperand a (accessCheck s a n (.read false)))
  | .ok => .next (value, s)

/-- The address a memory-mode specifier computes for an operand of `size` bytes, R15 reading as `r15`, and the state with its
register updated (R83): for index mode, the base's address plus the index times the size. DESIGN CHOICE, log 36: where the base
updates the index register itself, the index is the register's value BEFORE that update; R83 does not say which. -/
def memAddr (s : State) (r15 : Longword) (size : Nat) : MemMode → Resolved Address
  | .deferred n => .next (s.general r15 n, s)
  | .autodec n =>
    .next (s.general r15 n - BitVec.ofNat 32 size, s.setGeneral n (s.general r15 n - BitVec.ofNat 32 size))
  | .autoinc n => .next (s.general r15 n, s.setGeneral n (s.general r15 n + BitVec.ofNat 32 size))
  | .autoincDef n =>
    scalarRead (s.setGeneral n (s.general r15 n + 4)) (s.general r15 n) 4 (s.readL (s.general r15 n))
  | .absolute a => .next (a, s)
  | .disp n d => .next (s.general r15 n + d, s)
  | .dispDef n d => scalarRead s (s.general r15 n + d) 4 (s.readL (s.general r15 n + d))
  | .indexed x m =>
    match memAddr s r15 size m with
    | .next (a, s') => .next (a + s.general r15 x * BitVec.ofNat 32 size, s')
    | .fault r => .fault r
    | .refused r => .refused r

/-- The operand at a memory address: its value for a read operand, the address itself for an address operand, the place
for a written one (R13, R83). -/
def memOperand (s : State) (k : OperandKind) (a : Address) : Resolved OpVal :=
  match k with
  | .rw => scalarRead s a 2 (.word (s.readW a))
  | .rl => scalarRead s a 4 (.long (s.readL a))
  | .rq => scalarRead s a 8 (.quad (s.readQ a).q)
  | .ab => .next (.addr a, s)
  | .wl => .next (.dest (.mem a), s)

/-- The operand in register mode, R15 reading as `r15`: a quadword is R[n] (low) and R[n+1] (R32), so R15 holds none. -/
def registerOperand (s : State) (r15 : Longword) (k : OperandKind) (n : GReg) : Resolved OpVal :=
  match k with
  | .rw => .next (.word ((s.general r15 n).setWidth 16), s)
  | .rl => .next (.long (s.general r15 n), s)
  | .rq =>
    if n = 15 then .refused (.undecodable .quadwordAtR15)
    else .next (.quad (s.general r15 (n + 1) ++ s.general r15 n), s)
  | .ab => .refused (.undecodable .modeNotAllowed)
  | .wl => .next (.dest (.reg n), s)

/-- The value of one operand (R83), R15 reading as `r15`. -/
def resolve (s : State) (r15 : Longword) (k : OperandKind) (sp : Spec) : Resolved OpVal :=
  match staticVal k sp with
  | some v => .next (v, s)
  | none =>
    match sp with
    | .register n => registerOperand s r15 k n
    | .mem m =>
      match memAddr s r15 k.size m with
      | .next (a, s') => memOperand s' k a
      | .fault r => .fault r
      | .refused r => .refused r
    | _ => .refused (.undecodable .modeNotAllowed)

/-- The values of an instruction's operands, evaluated in instruction-stream order, each seeing the register updates of
those before it, and R15 as the address of the byte after its own specifier (log 36). -/
def resolveAll (s : State) : List OperandKind → List Specifier → Resolved (List OpVal)
  | k :: ks, sp :: sps =>
    match resolve s (s.pc + BitVec.ofNat 32 sp.after) k sp.spec with
    | .fault r => .fault r
    | .refused r => .refused r
    | .next (v, s') =>
      match resolveAll s' ks sps with
      | .fault r => .fault r
      | .refused r => .refused r
      | .next (vs, s'') => .next (v :: vs, s'')
  | _, _ => .next ([], s)

/-- The result of MFVP delivered to its destination (R142): a scalar register, or a longword of memory (log 38). For the
latter the model's order of tests is device space, `access_check`, program text (DESIGN CHOICE, log 25, 37). -/
def writeDest (s : State) (d : Dest) (x : Longword) : Outcome :=
  match d with
  | .reg n => .next (s.setGeneral n x)
  | .mem a =>
    match scalarAccess s a 4 .write with
    | .refuse r => .refused r
    | .raise _ => .fault (.scalarOperand a (accessCheck s a 4 .write))
    | .ok => if overlapsText s a 4 then .refused (.storeToProgramText a) else .next (s.writeL a x)

end Sys2Proof.Machine
end

