-- ==== Sys2Proof/Machine/Control.lean ====
section
/-! DEFINITION. MFVP, MTVP and VSYNC: control register moves and synchronisation (R140 to R161), with their eleven
assembler mnemonics. -/

namespace Sys2Proof.Machine

/-- The SYNC and MSYNC functions of MFVP: nothing waits, no state changes, and the destination receives a drawn value
(R62, R147, R148; log 14, 16). -/
def syncResult (dst : Dest) (s : State) : Outcome :=
  writeDest { s with draws := s.draws + 1 } dst (Config.draw32 s.draws)

/-- The cases of MFVP (R142 to R149). -/
def moveFrom (regnum : Word) (dst : Dest) (s : State) : Outcome :=
  if regnum = regnumVCR then writeDest s dst (s.vcr.setWidth 32)
  else if regnum = regnumVLR then writeDest s dst (s.vlr.setWidth 32)
  else if regnum = regnumVMRLO then writeDest s dst (s.vmr.extractLsb' 0 32)
  else if regnum = regnumVMRHI then writeDest s dst (s.vmr.extractLsb' 32 32)
  else if regnum = regnumSYNC then syncResult dst s
  else if regnum = regnumMSYNC then syncResult dst s
  else .refused .reservedRegnum

/-- The cases of MTVP (R150 to R155; log 9, 10). -/
def moveTo (regnum : Word) (src : Longword) (s : State) : Outcome :=
  if regnum = regnumVCR then
    if 127 < src.toNat then .refused .vcrOutOfRange else .next { s with vcr := src.extractLsb' 0 7 }
  else if regnum = regnumVLR then
    if NELEM < src.toNat then .refused .vlrOutOfRange else .next { s with vlr := src.extractLsb' 0 7 }
  else if regnum = regnumVMRLO then .next { s with vmr := s.vmr.extractLsb' 32 32 ++ src }
  else if regnum = regnumVMRHI then .next { s with vmr := src ++ s.vmr.extractLsb' 0 32 }
  else .refused .reservedRegnum

/-- The cases of VSYNC: it changes no state (R62, R160, R161; log 14). -/
def synchronize (regnum : Word) (s : State) : Outcome :=
  if regnum = 0 then .next s else .refused .reservedRegnum

/-- MFVP (R142). -/
def execMfvp (regnum : Word) (dst : Dest) (s : State) : Outcome := moveFrom regnum dst s
/-- MTVP (R150). -/
def execMtvp (regnum : Word) (src : Longword) (s : State) : Outcome := moveTo regnum src s
/-- VSYNC (R160). -/
def execVsync (regnum : Word) (s : State) : Outcome := synchronize regnum s

/-! ### The assembler mnemonics: a register number each (R117, R141) -/

/-- MFVCR (R143). -/
def execMfvcr (dst : Dest) (s : State) : Outcome := moveFrom regnumVCR dst s
/-- MFVLR (R144). -/
def execMfvlr (dst : Dest) (s : State) : Outcome := moveFrom regnumVLR dst s
/-- MFVMRLO (R145). -/
def execMfvmrlo (dst : Dest) (s : State) : Outcome := moveFrom regnumVMRLO dst s
/-- MFVMRHI (R146). -/
def execMfvmrhi (dst : Dest) (s : State) : Outcome := moveFrom regnumVMRHI dst s
/-- SYNCH (R147). -/
def execSynch (dst : Dest) (s : State) : Outcome := moveFrom regnumSYNC dst s
/-- MSYNCH (R148). -/
def execMsynch (dst : Dest) (s : State) : Outcome := moveFrom regnumMSYNC dst s
/-- MTVCR (R151). -/
def execMtvcr (src : Longword) (s : State) : Outcome := moveTo regnumVCR src s
/-- MTVLR (R152). -/
def execMtvlr (src : Longword) (s : State) : Outcome := moveTo regnumVLR src s
/-- MTVMRLO (R153). -/
def execMtvmrlo (src : Longword) (s : State) : Outcome := moveTo regnumVMRLO src s
/-- MTVMRHI (R154). -/
def execMtvmrhi (src : Longword) (s : State) : Outcome := moveTo regnumVMRHI src s
/-- VSYNCH (R160). -/
def execVsynch (s : State) : Outcome := synchronize 0 s

end Sys2Proof.Machine
end

