-- ==== Sys2Proof/Machine/Convert.lean ====
section
/-! DEFINITION. VVCVT: vector convert (R350 to R367), with its 13 assembler mnemonics. -/

namespace Sys2Proof.Machine

/-- What an answer of `FP.cvt` does to one element (R351): EXC enables floating underflow and integer overflow; the other
conditions are always raised (log 13, 34). -/
def cvtRes (fp : FP) (t : DType) (exc : Bool) : CvtResult t.width → ElemRes
  | .value v => .datum t v
  | .reservedOperand => .raise .floatingReservedOperand
  | .overflow => .raise .floatingOverflow
  | .underflow => if exc then .raise .floatingUnderflow else .datum t (fp.zero t)
  | .integerOverflow v => if exc then .raise .integerOverflow else .datum t v

/-- The element step of a conversion: the source is Vb (R350, R351). -/
def convertLoop (fp : FP) (f : CvtFunc) (c : Cntrl) (s : State) : Outcome :=
  registerLoop (enabled c s) c.vc (fun _ e => cvtRes fp f.dst c.exc (fp.cvt f (elemDatum (e c.vb) f.src))) s

/-- VVCVT: the refusals (R88, R365), then the conversion of `cntrl<11:8>` (R90, R351). -/
def convert (fp : FP) (c : Cntrl) (s : State) : Outcome :=
  checkedMbz mbzVV c
    (match c.cvtFunc with
     | none => .refused .reservedCvtFunc
     | some f => convertLoop fp f c s)

/-- VVCVT (R351). -/
def execVvcvt (c : Cntrl) (s : State) : Outcome := convert vaxFP c s

/-! ### The assembler mnemonics: VVCVT with the control word the assembler builds (R116, R117) -/

/-- VVCVTLF (R352). -/
def execVvcvtlf (u : Bool) (q : MaskQual) (vb vc : VReg) (s : State) : Outcome :=
  convert vaxFP (Cntrl.cvt .cvtlf u q vb vc) s
/-- VVCVTLD (R353). -/
def execVvcvtld (u : Bool) (q : MaskQual) (vb vc : VReg) (s : State) : Outcome :=
  convert vaxFP (Cntrl.cvt .cvtld u q vb vc) s
/-- VVCVTLG (R354). -/
def execVvcvtlg (u : Bool) (q : MaskQual) (vb vc : VReg) (s : State) : Outcome :=
  convert vaxFP (Cntrl.cvt .cvtlg u q vb vc) s
/-- VVCVTFL (R355). -/
def execVvcvtfl (u : Bool) (q : MaskQual) (vb vc : VReg) (s : State) : Outcome :=
  convert vaxFP (Cntrl.cvt .cvtfl u q vb vc) s
/-- VVCVTRFL (R356). -/
def execVvcvtrfl (u : Bool) (q : MaskQual) (vb vc : VReg) (s : State) : Outcome :=
  convert vaxFP (Cntrl.cvt .cvtrfl u q vb vc) s
/-- VVCVTFD (R357). -/
def execVvcvtfd (u : Bool) (q : MaskQual) (vb vc : VReg) (s : State) : Outcome :=
  convert vaxFP (Cntrl.cvt .cvtfd u q vb vc) s
/-- VVCVTFG (R358). -/
def execVvcvtfg (u : Bool) (q : MaskQual) (vb vc : VReg) (s : State) : Outcome :=
  convert vaxFP (Cntrl.cvt .cvtfg u q vb vc) s
/-- VVCVTDL (R359). -/
def execVvcvtdl (u : Bool) (q : MaskQual) (vb vc : VReg) (s : State) : Outcome :=
  convert vaxFP (Cntrl.cvt .cvtdl u q vb vc) s
/-- VVCVTDF (R360). -/
def execVvcvtdf (u : Bool) (q : MaskQual) (vb vc : VReg) (s : State) : Outcome :=
  convert vaxFP (Cntrl.cvt .cvtdf u q vb vc) s
/-- VVCVTRDL (R361). -/
def execVvcvtrdl (u : Bool) (q : MaskQual) (vb vc : VReg) (s : State) : Outcome :=
  convert vaxFP (Cntrl.cvt .cvtrdl u q vb vc) s
/-- VVCVTGL (R362). -/
def execVvcvtgl (u : Bool) (q : MaskQual) (vb vc : VReg) (s : State) : Outcome :=
  convert vaxFP (Cntrl.cvt .cvtgl u q vb vc) s
/-- VVCVTGF (R363). -/
def execVvcvtgf (u : Bool) (q : MaskQual) (vb vc : VReg) (s : State) : Outcome :=
  convert vaxFP (Cntrl.cvt .cvtgf u q vb vc) s
/-- VVCVTRGL (R364). -/
def execVvcvtrgl (u : Bool) (q : MaskQual) (vb vc : VReg) (s : State) : Outcome :=
  convert vaxFP (Cntrl.cvt .cvtrgl u q vb vc) s

end Sys2Proof.Machine
end

