-- ==== Sys2Proof/Machine/FloatArith.lean ====
section
/-! DEFINITION. VADD, VSUB, VMUL and VDIV: vector floating-point arithmetic, written against a record `FP` (R41, R170,
R171), and the 24 instructions with the instance `vaxFP` (log 17). -/

namespace Sys2Proof.Machine

/-- What an answer of `FP.op` does to one element (R171): a value is stored; underflow is raised when it is enabled, and
otherwise stores `FP.zero`; the other conditions are always raised (R404 to R408; log 13). -/
def floatRes (fp : FP) (t : FType) (exc : Bool) : FPResult t.dtype.width → ElemRes
  | .value v => .datum t.dtype v
  | .reservedOperand => .raise .floatingReservedOperand
  | .divideByZero => .raise .floatingDivideByZero
  | .overflow => .raise .floatingOverflow
  | .underflow => if exc then .raise .floatingUnderflow else .datum t.dtype (fp.zero t.dtype)

/-- The element step of the vector-vector forms (R171). -/
def vvFloat (fp : FP) (op : FOp) (t : FType) (c : Cntrl) (s : State) : Outcome :=
  checkedMbz mbzVV c
    (registerLoop (enabled c s) c.vc
      (fun _ e => floatRes fp t c.exc (fp.op op t (elemDatum (e c.va) t.dtype) (elemDatum (e c.vb) t.dtype))) s)

/-- The element step of the vector-scalar forms: the scalar is the left operand (R170, R171). -/
def vsFloat (fp : FP) (op : FOp) (t : FType) (c : Cntrl) (x : BitVec t.dtype.width) (s : State) : Outcome :=
  checkedMbz mbzVS c
    (registerLoop (enabled c s) c.vc
      (fun _ e => floatRes fp t c.exc (fp.op op t x (elemDatum (e c.vb) t.dtype))) s)

/-- VVADDF (R172). -/
def execVvaddf (c : Cntrl) (s : State) : Outcome := vvFloat vaxFP .add .f c s
/-- VSADDF (R173). -/
def execVsaddf (c : Cntrl) (x : Longword) (s : State) : Outcome := vsFloat vaxFP .add .f c x s
/-- VVADDD (R174). -/
def execVvaddd (c : Cntrl) (s : State) : Outcome := vvFloat vaxFP .add .d c s
/-- VSADDD (R175). -/
def execVsaddd (c : Cntrl) (x : Quadword) (s : State) : Outcome := vsFloat vaxFP .add .d c x s
/-- VVADDG (R176). -/
def execVvaddg (c : Cntrl) (s : State) : Outcome := vvFloat vaxFP .add .g c s
/-- VSADDG (R177). -/
def execVsaddg (c : Cntrl) (x : Quadword) (s : State) : Outcome := vsFloat vaxFP .add .g c x s
/-- VVDIVF (R180). -/
def execVvdivf (c : Cntrl) (s : State) : Outcome := vvFloat vaxFP .div .f c s
/-- VSDIVF (R181). -/
def execVsdivf (c : Cntrl) (x : Longword) (s : State) : Outcome := vsFloat vaxFP .div .f c x s
/-- VVDIVD (R182). -/
def execVvdivd (c : Cntrl) (s : State) : Outcome := vvFloat vaxFP .div .d c s
/-- VSDIVD (R183). -/
def execVsdivd (c : Cntrl) (x : Quadword) (s : State) : Outcome := vsFloat vaxFP .div .d c x s
/-- VVDIVG (R184). -/
def execVvdivg (c : Cntrl) (s : State) : Outcome := vvFloat vaxFP .div .g c s
/-- VSDIVG (R185). -/
def execVsdivg (c : Cntrl) (x : Quadword) (s : State) : Outcome := vsFloat vaxFP .div .g c x s
/-- VVMULF (R190). -/
def execVvmulf (c : Cntrl) (s : State) : Outcome := vvFloat vaxFP .mul .f c s
/-- VSMULF (R191). -/
def execVsmulf (c : Cntrl) (x : Longword) (s : State) : Outcome := vsFloat vaxFP .mul .f c x s
/-- VVMULD (R192). -/
def execVvmuld (c : Cntrl) (s : State) : Outcome := vvFloat vaxFP .mul .d c s
/-- VSMULD (R193). -/
def execVsmuld (c : Cntrl) (x : Quadword) (s : State) : Outcome := vsFloat vaxFP .mul .d c x s
/-- VVMULG (R194). -/
def execVvmulg (c : Cntrl) (s : State) : Outcome := vvFloat vaxFP .mul .g c s
/-- VSMULG (R195). -/
def execVsmulg (c : Cntrl) (x : Quadword) (s : State) : Outcome := vsFloat vaxFP .mul .g c x s
/-- VVSUBF (R200). -/
def execVvsubf (c : Cntrl) (s : State) : Outcome := vvFloat vaxFP .sub .f c s
/-- VSSUBF (R201). -/
def execVssubf (c : Cntrl) (x : Longword) (s : State) : Outcome := vsFloat vaxFP .sub .f c x s
/-- VVSUBD (R202). -/
def execVvsubd (c : Cntrl) (s : State) : Outcome := vvFloat vaxFP .sub .d c s
/-- VSSUBD (R203). -/
def execVssubd (c : Cntrl) (x : Quadword) (s : State) : Outcome := vsFloat vaxFP .sub .d c x s
/-- VVSUBG (R204). -/
def execVvsubg (c : Cntrl) (s : State) : Outcome := vvFloat vaxFP .sub .g c s
/-- VSSUBG (R205). -/
def execVssubg (c : Cntrl) (x : Quadword) (s : State) : Outcome := vsFloat vaxFP .sub .g c x s

end Sys2Proof.Machine
end

