-- ==== Sys2Proof/Machine/IntArith.lean ====
section
/-! DEFINITION. VADDL, VSUBL and VMULL: vector integer arithmetic (R220 to R228). -/

namespace Sys2Proof.Machine

/-- One element (R228): integer overflow is raised when it is enabled and occurs, otherwise the low 32 bits are stored
(R221, R409; log 13, 19). -/
def intElem (op : IOp) (exc : Bool) (x y : Longword) : ElemRes :=
  if exc && op.overflows x y then .raise .integerOverflow else .low (op.result x y)

/-- The element step of the vector-vector forms: first operand `Va[i]<31:0>`, second `Vb[i]<31:0>` (R228). -/
def vvInt (op : IOp) (c : Cntrl) (s : State) : Outcome :=
  checkedMbz mbzVV c
    (registerLoop (enabled c s) c.vc (fun _ e => intElem op c.exc (e c.va).lo (e c.vb).lo) s)

/-- The element step of the vector-scalar forms: first operand the scalar (R220, R228). -/
def vsInt (op : IOp) (c : Cntrl) (x : Longword) (s : State) : Outcome :=
  checkedMbz mbzVS c
    (registerLoop (enabled c s) c.vc (fun _ e => intElem op c.exc x (e c.vb).lo) s)

/-- VVADDL (R222). -/
def execVvaddl (c : Cntrl) (s : State) : Outcome := vvInt .add c s
/-- VSADDL (R223). -/
def execVsaddl (c : Cntrl) (x : Longword) (s : State) : Outcome := vsInt .add c x s
/-- VVMULL (R224). -/
def execVvmull (c : Cntrl) (s : State) : Outcome := vvInt .mul c s
/-- VSMULL (R225). -/
def execVsmull (c : Cntrl) (x : Longword) (s : State) : Outcome := vsInt .mul c x s
/-- VVSUBL: `Va[i] - Vb[i]` (R226). -/
def execVvsubl (c : Cntrl) (s : State) : Outcome := vvInt .sub c s
/-- VSSUBL: the scalar is the minuend (R227). -/
def execVssubl (c : Cntrl) (x : Longword) (s : State) : Outcome := vsInt .sub c x s

end Sys2Proof.Machine
end

