-- ==== Sys2Proof/Machine/Iota.lean ====
section
/-! DEFINITION. IOTA: generate compressed iota vector (R130, R131). -/

namespace Sys2Proof.Machine

/-- The loop of R131 over the remaining elements, `j` values written so far and `tmp` the running sum; at the end VCR
receives the count. `j` is below 64 whenever an element is written, so its element number is `j` itself. -/
def iotaLoop (mtf : Bool) (stride : Longword) (vc : VReg) : List ElemIx → Nat → Longword → State → State
  | [], j, _, s => { s with vcr := BitVec.ofNat 7 j }
  | i :: is, j, tmp, s =>
    if s.maskBit i == mtf then
      iotaLoop mtf stride vc is (j + 1) (tmp + stride) (s.setLow vc (Fin.ofNat NELEM j) tmp)
    else iotaLoop mtf stride vc is j (tmp + stride) s

/-- The operation of R131 behind its refusals (R88). -/
def iota (c : Cntrl) (stride : Longword) (s : State) : Outcome :=
  checkedMbz mbzIota c (.next (iotaLoop c.mtf stride c.vc s.elements 0 0 s))

/-- IOTA (R131). -/
def execIota (c : Cntrl) (stride : Longword) (s : State) : Outcome := iota c stride s

end Sys2Proof.Machine
end

