-- ==== Sys2Proof/Machine/LoadStore.lean ====
section
/-! DEFINITION. VLD, VGATH, VST and VSCAT: loads, gathers, stores and scatters (R300 to R310). -/

namespace Sys2Proof.Machine

/-- A strided load: element `i` from `base + i * stride` (R300, R303, R304). -/
def loadStrided (w : MemWidth) (c : Cntrl) (base : Address) (stride : Longword) (s : State) : Outcome :=
  checkedMbz mbzLoad c
    (registerLoop (enabled c s) c.vc (fun i _ => loadElem s w c.mi (stridedAddr base stride i)) s)

/-- A gather: element `i` from `base + Vb[i]<31:0>`, the offset read before `Vc[i]` is written (R301, R302). -/
def gather (w : MemWidth) (c : Cntrl) (base : Address) (s : State) : Outcome :=
  checkedMbz mbzGather c
    (registerLoop (enabled c s) c.vc (fun _ e => loadElem s w c.mi (indexedAddr base (e c.vb))) s)

/-- A strided store: element `i` to `base + i * stride` (R300, R307, R308). -/
def storeStrided (w : MemWidth) (c : Cntrl) (base : Address) (stride : Longword) (s : State) : Outcome :=
  checkedMbz mbzStore c (storeLoop (enabled c s) w (stridedAddr base stride) c.vc s)

/-- A scatter: element `i` to `base + Vb[i]<31:0>` (R305, R306). -/
def scatter (w : MemWidth) (c : Cntrl) (base : Address) (s : State) : Outcome :=
  checkedMbz mbzScatter c (storeLoop (enabled c s) w (fun i => indexedAddr base (s.elem c.vb i)) c.vc s)

/-- VGATHL (R301). -/
def execVgathl (c : Cntrl) (base : Address) (s : State) : Outcome := gather .long c base s
/-- VGATHQ (R302). -/
def execVgathq (c : Cntrl) (base : Address) (s : State) : Outcome := gather .quad c base s
/-- VLDL (R303). -/
def execVldl (c : Cntrl) (base : Address) (stride : Longword) (s : State) : Outcome := loadStrided .long c base stride s
/-- VLDQ (R304). -/
def execVldq (c : Cntrl) (base : Address) (stride : Longword) (s : State) : Outcome := loadStrided .quad c base stride s
/-- VSCATL (R305). -/
def execVscatl (c : Cntrl) (base : Address) (s : State) : Outcome := scatter .long c base s
/-- VSCATQ (R306). -/
def execVscatq (c : Cntrl) (base : Address) (s : State) : Outcome := scatter .quad c base s
/-- VSTL (R307). -/
def execVstl (c : Cntrl) (base : Address) (stride : Longword) (s : State) : Outcome := storeStrided .long c base stride s
/-- VSTQ (R308). -/
def execVstq (c : Cntrl) (base : Address) (stride : Longword) (s : State) : Outcome := storeStrided .quad c base stride s

end Sys2Proof.Machine
end

