-- ==== Sys2Proof/Machine/Logical.lean ====
section
/-! DEFINITION. VBIS, VXOR and VBIC: vector logical functions (R240 to R247). -/

namespace Sys2Proof.Machine

/-- The three functions of R240. -/
inductive LOp where
  | bis | xor | bic
  deriving DecidableEq, Repr

/-- `g(x, y)` of R247, `x` the first operand: the mask of bits to clear for BIC. -/
def LOp.result (op : LOp) (x y : Longword) : Longword :=
  match op with
  | .bis => x ||| y
  | .xor => x ^^^ y
  | .bic => ~~~x &&& y

/-- One element (R247): the low half is the function, the high half that of `Vb[i]`. -/
def logicalElem (op : LOp) (x : Longword) (y : Element) : ElemRes := .whole ⟨y.hi, op.result x y.lo⟩

/-- The element step of the vector-vector forms (R247). -/
def vvLogical (op : LOp) (c : Cntrl) (s : State) : Outcome :=
  checkedMbz mbzVVNoExc c
    (registerLoop (enabled c s) c.vc (fun _ e => logicalElem op (e c.va).lo (e c.vb)) s)

/-- The element step of the vector-scalar forms (R247). -/
def vsLogical (op : LOp) (c : Cntrl) (x : Longword) (s : State) : Outcome :=
  checkedMbz mbzVSNoExc c
    (registerLoop (enabled c s) c.vc (fun _ e => logicalElem op x (e c.vb)) s)

/-- VVBISL (R241). -/
def execVvbisl (c : Cntrl) (s : State) : Outcome := vvLogical .bis c s
/-- VVXORL (R242). -/
def execVvxorl (c : Cntrl) (s : State) : Outcome := vvLogical .xor c s
/-- VVBICL (R243). -/
def execVvbicl (c : Cntrl) (s : State) : Outcome := vvLogical .bic c s
/-- VSBISL (R244). -/
def execVsbisl (c : Cntrl) (x : Longword) (s : State) : Outcome := vsLogical .bis c x s
/-- VSXORL (R245). -/
def execVsxorl (c : Cntrl) (x : Longword) (s : State) : Outcome := vsLogical .xor c x s
/-- VSBICL (R246). -/
def execVsbicl (c : Cntrl) (x : Longword) (s : State) : Outcome := vsLogical .bic c x s

end Sys2Proof.Machine
end

