-- ==== Sys2Proof/Machine/Merge.lean ====
section
/-! DEFINITION. VMERGE: vector merge (R340 to R343), with the three further spellings of VSMERGE. -/

namespace Sys2Proof.Machine

/-- The element step of VVMERGE: every element below VLR is written, whole (R340, R341). -/
def vvMerge (c : Cntrl) (s : State) : Outcome :=
  checkedMbz mbzVVMerge c
    (registerLoop (fun _ => true) c.vc (fun i e => .whole (if selected c s i then e c.va else e c.vb)) s)

/-- The element step of VSMERGE: the scalar is a whole quadword (R342). -/
def vsMerge (c : Cntrl) (x : Quadword) (s : State) : Outcome :=
  checkedMbz mbzVSMerge c
    (registerLoop (fun _ => true) c.vc (fun i e => .whole (if selected c s i then .ofQ x else e c.vb)) s)

/-- VVMERGE (R341). -/
def execVvmerge (c : Cntrl) (s : State) : Outcome := vvMerge c s
/-- VSMERGE (R342). -/
def execVsmerge (c : Cntrl) (x : Quadword) (s : State) : Outcome := vsMerge c x s
/-- VSMERGEF, a spelling of VSMERGE (R343; log 33). -/
def execVsmergef (mtf : Bool) (x : Quadword) (vb vc : VReg) (s : State) : Outcome := vsMerge (Cntrl.vsMerge mtf vb vc) x s
/-- VSMERGED, a spelling of VSMERGE (R343; log 33). -/
def execVsmerged (mtf : Bool) (x : Quadword) (vb vc : VReg) (s : State) : Outcome := vsMerge (Cntrl.vsMerge mtf vb vc) x s
/-- VSMERGEG, a spelling of VSMERGE (R343; log 33). -/
def execVsmergeg (mtf : Bool) (x : Quadword) (vb vc : VReg) (s : State) : Outcome := vsMerge (Cntrl.vsMerge mtf vb vc) x s

end Sys2Proof.Machine
end

