-- ==== Sys2Proof/Machine/Shift.lean ====
section
/-! DEFINITION. VSL: vector logical shifts (R260 to R266). -/

namespace Sys2Proof.Machine

/-- The two directions of R260. -/
inductive ShiftOp where
  | right | left
  deriving DecidableEq, Repr

/-- `RIGHT_SHIFT` and `LEFT_SHIFT` (R262; log 30), the count being bits 4:0 of its operand (R260). -/
def ShiftOp.result (op : ShiftOp) (count x : Longword) : Longword :=
  match op with
  | .right => x >>> (count.extractLsb' 0 5).toNat
  | .left => x <<< (count.extractLsb' 0 5).toNat

/-- The element step of the vector-vector forms: the count from Va, the data from Vb (R260, R261). -/
def vvShift (op : ShiftOp) (c : Cntrl) (s : State) : Outcome :=
  checkedMbz mbzVVNoExc c
    (registerLoop (enabled c s) c.vc (fun _ e => .low (op.result (e c.va).lo (e c.vb).lo)) s)

/-- The element step of the vector-scalar forms: one count for all elements (R260, R261). -/
def vsShift (op : ShiftOp) (c : Cntrl) (cnt : Longword) (s : State) : Outcome :=
  checkedMbz mbzVSNoExc c
    (registerLoop (enabled c s) c.vc (fun _ e => .low (op.result cnt (e c.vb).lo)) s)

/-- VVSRLL (R263). -/
def execVvsrll (c : Cntrl) (s : State) : Outcome := vvShift .right c s
/-- VVSLLL (R264). -/
def execVvslll (c : Cntrl) (s : State) : Outcome := vvShift .left c s
/-- VSSRLL (R265). -/
def execVssrll (c : Cntrl) (cnt : Longword) (s : State) : Outcome := vsShift .right c cnt s
/-- VSSLLL (R266). -/
def execVsslll (c : Cntrl) (cnt : Longword) (s : State) : Outcome := vsShift .left c cnt s

end Sys2Proof.Machine
end

