-- ==== Sys2Proof/Machine/Dispatch.lean ====
section
/-! DEFINITION. The meaning of an instruction: one arm per constructor of `Instr`. -/

namespace Sys2Proof.Machine

def exec (i : Instr) (s : State) : Host.Outcome State Fault Refusal :=
  match i with
  | .mfvp regnum dst => Sys2Proof.Machine.execMfvp regnum dst s
  | .vldl c base stride => Sys2Proof.Machine.execVldl c base stride s
  | .vgathl c base => Sys2Proof.Machine.execVgathl c base s
  | .vldq c base stride => Sys2Proof.Machine.execVldq c base stride s
  | .vgathq c base => Sys2Proof.Machine.execVgathq c base s
  | .vvaddl c => Sys2Proof.Machine.execVvaddl c s
  | .vsaddl c x => Sys2Proof.Machine.execVsaddl c x s
  | .vvaddg c => Sys2Proof.Machine.execVvaddg c s
  | .vsaddg c x => Sys2Proof.Machine.execVsaddg c x s
  | .vvaddf c => Sys2Proof.Machine.execVvaddf c s
  | .vsaddf c x => Sys2Proof.Machine.execVsaddf c x s
  | .vvaddd c => Sys2Proof.Machine.execVvaddd c s
  | .vsaddd c x => Sys2Proof.Machine.execVsaddd c x s
  | .vvsubl c => Sys2Proof.Machine.execVvsubl c s
  | .vssubl c x => Sys2Proof.Machine.execVssubl c x s
  | .vvsubg c => Sys2Proof.Machine.execVvsubg c s
  | .vssubg c x => Sys2Proof.Machine.execVssubg c x s
  | .vvsubf c => Sys2Proof.Machine.execVvsubf c s
  | .vssubf c x => Sys2Proof.Machine.execVssubf c x s
  | .vvsubd c => Sys2Proof.Machine.execVvsubd c s
  | .vssubd c x => Sys2Proof.Machine.execVssubd c x s
  | .vstl c base stride => Sys2Proof.Machine.execVstl c base stride s
  | .vscatl c base => Sys2Proof.Machine.execVscatl c base s
  | .vstq c base stride => Sys2Proof.Machine.execVstq c base stride s
  | .vscatq c base => Sys2Proof.Machine.execVscatq c base s
  | .vvmull c => Sys2Proof.Machine.execVvmull c s
  | .vsmull c x => Sys2Proof.Machine.execVsmull c x s
  | .vvmulg c => Sys2Proof.Machine.execVvmulg c s
  | .vsmulg c x => Sys2Proof.Machine.execVsmulg c x s
  | .vvmulf c => Sys2Proof.Machine.execVvmulf c s
  | .vsmulf c x => Sys2Proof.Machine.execVsmulf c x s
  | .vvmuld c => Sys2Proof.Machine.execVvmuld c s
  | .vsmuld c x => Sys2Proof.Machine.execVsmuld c x s
  | .vsync regnum => Sys2Proof.Machine.execVsync regnum s
  | .mtvp regnum src => Sys2Proof.Machine.execMtvp regnum src s
  | .vvdivg c => Sys2Proof.Machine.execVvdivg c s
  | .vsdivg c x => Sys2Proof.Machine.execVsdivg c x s
  | .vvdivf c => Sys2Proof.Machine.execVvdivf c s
  | .vsdivf c x => Sys2Proof.Machine.execVsdivf c x s
  | .vvdivd c => Sys2Proof.Machine.execVvdivd c s
  | .vsdivd c x => Sys2Proof.Machine.execVsdivd c x s
  | .vvcmpl c => Sys2Proof.Machine.execVvcmpl c s
  | .vscmpl c x => Sys2Proof.Machine.execVscmpl c x s
  | .vvcmpg c => Sys2Proof.Machine.execVvcmpg c s
  | .vscmpg c x => Sys2Proof.Machine.execVscmpg c x s
  | .vvcmpf c => Sys2Proof.Machine.execVvcmpf c s
  | .vscmpf c x => Sys2Proof.Machine.execVscmpf c x s
  | .vvcmpd c => Sys2Proof.Machine.execVvcmpd c s
  | .vscmpd c x => Sys2Proof.Machine.execVscmpd c x s
  | .vvbisl c => Sys2Proof.Machine.execVvbisl c s
  | .vsbisl c x => Sys2Proof.Machine.execVsbisl c x s
  | .vvbicl c => Sys2Proof.Machine.execVvbicl c s
  | .vsbicl c x => Sys2Proof.Machine.execVsbicl c x s
  | .vvsrll c => Sys2Proof.Machine.execVvsrll c s
  | .vssrll c x => Sys2Proof.Machine.execVssrll c x s
  | .vvslll c => Sys2Proof.Machine.execVvslll c s
  | .vsslll c x => Sys2Proof.Machine.execVsslll c x s
  | .vvxorl c => Sys2Proof.Machine.execVvxorl c s
  | .vsxorl c x => Sys2Proof.Machine.execVsxorl c x s
  | .vvcvt c => Sys2Proof.Machine.execVvcvt c s
  | .iota c stride => Sys2Proof.Machine.execIota c stride s
  | .vvmerge c => Sys2Proof.Machine.execVvmerge c s
  | .vsmerge c x => Sys2Proof.Machine.execVsmerge c x s
  | .vvgtrf q va vb => Sys2Proof.Machine.execVvgtrf q va vb s
  | .vveqlf q va vb => Sys2Proof.Machine.execVveqlf q va vb s
  | .vvlssf q va vb => Sys2Proof.Machine.execVvlssf q va vb s
  | .vvleqf q va vb => Sys2Proof.Machine.execVvleqf q va vb s
  | .vvneqf q va vb => Sys2Proof.Machine.execVvneqf q va vb s
  | .vvgeqf q va vb => Sys2Proof.Machine.execVvgeqf q va vb s
  | .vsgtrf q src vb => Sys2Proof.Machine.execVsgtrf q src vb s
  | .vseqlf q src vb => Sys2Proof.Machine.execVseqlf q src vb s
  | .vslssf q src vb => Sys2Proof.Machine.execVslssf q src vb s
  | .vsleqf q src vb => Sys2Proof.Machine.execVsleqf q src vb s
  | .vsneqf q src vb => Sys2Proof.Machine.execVsneqf q src vb s
  | .vsgeqf q src vb => Sys2Proof.Machine.execVsgeqf q src vb s
  | .vvgtrd q va vb => Sys2Proof.Machine.execVvgtrd q va vb s
  | .vveqld q va vb => Sys2Proof.Machine.execVveqld q va vb s
  | .vvlssd q va vb => Sys2Proof.Machine.execVvlssd q va vb s
  | .vvleqd q va vb => Sys2Proof.Machine.execVvleqd q va vb s
  | .vvneqd q va vb => Sys2Proof.Machine.execVvneqd q va vb s
  | .vvgeqd q va vb => Sys2Proof.Machine.execVvgeqd q va vb s
  | .vsgtrd q src vb => Sys2Proof.Machine.execVsgtrd q src vb s
  | .vseqld q src vb => Sys2Proof.Machine.execVseqld q src vb s
  | .vslssd q src vb => Sys2Proof.Machine.execVslssd q src vb s
  | .vsleqd q src vb => Sys2Proof.Machine.execVsleqd q src vb s
  | .vsneqd q src vb => Sys2Proof.Machine.execVsneqd q src vb s
  | .vsgeqd q src vb => Sys2Proof.Machine.execVsgeqd q src vb s
  | .vvgtrg q va vb => Sys2Proof.Machine.execVvgtrg q va vb s
  | .vveqlg q va vb => Sys2Proof.Machine.execVveqlg q va vb s
  | .vvlssg q va vb => Sys2Proof.Machine.execVvlssg q va vb s
  | .vvleqg q va vb => Sys2Proof.Machine.execVvleqg q va vb s
  | .vvneqg q va vb => Sys2Proof.Machine.execVvneqg q va vb s
  | .vvgeqg q va vb => Sys2Proof.Machine.execVvgeqg q va vb s
  | .vsgtrg q src vb => Sys2Proof.Machine.execVsgtrg q src vb s
  | .vseqlg q src vb => Sys2Proof.Machine.execVseqlg q src vb s
  | .vslssg q src vb => Sys2Proof.Machine.execVslssg q src vb s
  | .vsleqg q src vb => Sys2Proof.Machine.execVsleqg q src vb s
  | .vsneqg q src vb => Sys2Proof.Machine.execVsneqg q src vb s
  | .vsgeqg q src vb => Sys2Proof.Machine.execVsgeqg q src vb s
  | .vvgtrl q va vb => Sys2Proof.Machine.execVvgtrl q va vb s
  | .vveqll q va vb => Sys2Proof.Machine.execVveqll q va vb s
  | .vvlssl q va vb => Sys2Proof.Machine.execVvlssl q va vb s
  | .vvleql q va vb => Sys2Proof.Machine.execVvleql q va vb s
  | .vvneql q va vb => Sys2Proof.Machine.execVvneql q va vb s
  | .vvgeql q va vb => Sys2Proof.Machine.execVvgeql q va vb s
  | .vsgtrl q src vb => Sys2Proof.Machine.execVsgtrl q src vb s
  | .vseqll q src vb => Sys2Proof.Machine.execVseqll q src vb s
  | .vslssl q src vb => Sys2Proof.Machine.execVslssl q src vb s
  | .vsleql q src vb => Sys2Proof.Machine.execVsleql q src vb s
  | .vsneql q src vb => Sys2Proof.Machine.execVsneql q src vb s
  | .vsgeql q src vb => Sys2Proof.Machine.execVsgeql q src vb s
  | .vvcvtlf u q vb vc => Sys2Proof.Machine.execVvcvtlf u q vb vc s
  | .vvcvtld u q vb vc => Sys2Proof.Machine.execVvcvtld u q vb vc s
  | .vvcvtlg u q vb vc => Sys2Proof.Machine.execVvcvtlg u q vb vc s
  | .vvcvtfl u q vb vc => Sys2Proof.Machine.execVvcvtfl u q vb vc s
  | .vvcvtrfl u q vb vc => Sys2Proof.Machine.execVvcvtrfl u q vb vc s
  | .vvcvtfd u q vb vc => Sys2Proof.Machine.execVvcvtfd u q vb vc s
  | .vvcvtfg u q vb vc => Sys2Proof.Machine.execVvcvtfg u q vb vc s
  | .vvcvtdl u q vb vc => Sys2Proof.Machine.execVvcvtdl u q vb vc s
  | .vvcvtdf u q vb vc => Sys2Proof.Machine.execVvcvtdf u q vb vc s
  | .vvcvtrdl u q vb vc => Sys2Proof.Machine.execVvcvtrdl u q vb vc s
  | .vvcvtgl u q vb vc => Sys2Proof.Machine.execVvcvtgl u q vb vc s
  | .vvcvtgf u q vb vc => Sys2Proof.Machine.execVvcvtgf u q vb vc s
  | .vvcvtrgl u q vb vc => Sys2Proof.Machine.execVvcvtrgl u q vb vc s
  | .mfvcr dst => Sys2Proof.Machine.execMfvcr dst s
  | .mfvlr dst => Sys2Proof.Machine.execMfvlr dst s
  | .mfvmrlo dst => Sys2Proof.Machine.execMfvmrlo dst s
  | .mfvmrhi dst => Sys2Proof.Machine.execMfvmrhi dst s
  | .synch dst => Sys2Proof.Machine.execSynch dst s
  | .msynch dst => Sys2Proof.Machine.execMsynch dst s
  | .mtvcr src => Sys2Proof.Machine.execMtvcr src s
  | .mtvlr src => Sys2Proof.Machine.execMtvlr src s
  | .mtvmrlo src => Sys2Proof.Machine.execMtvmrlo src s
  | .mtvmrhi src => Sys2Proof.Machine.execMtvmrhi src s
  | .vsynch => Sys2Proof.Machine.execVsynch s
  | .vsmergef mtf src vb vc => Sys2Proof.Machine.execVsmergef mtf src vb vc s
  | .vsmerged mtf src vb vc => Sys2Proof.Machine.execVsmerged mtf src vb vc s
  | .vsmergeg mtf src vb vc => Sys2Proof.Machine.execVsmergeg mtf src vb vc s

end Sys2Proof.Machine
end

