-- ==== Sys2Proof/Machine/Fetch.lean ====
section
/-! DEFINITION. Fetching an instruction's bytes and operand values, and placing one as the program. -/

namespace Sys2Proof.Machine

/-- The bytes of the program text from the pc on; none when the pc is below the text or at its end (R33, R64; log 2, 3).
No alignment is asked of the pc (R55). -/
def State.fetchBytes (s : State) : List Byte :=
  if s.textBase.toNat ≤ s.pc.toNat then s.text.drop (s.pc.toNat - s.textBase.toNat) else []

/-- The instruction of a parsed opcode and specifiers, its operand values read through the scalar registers and memory,
and the state with the registers its specifiers update (R7, R83; log 36). -/
def State.resolveInstr (s : State) (raw : RawInstr) : Resolved Instr :=
  match resolveAll s raw.build.kinds raw.specs with
  | .fault r => .fault r
  | .refused r => .refused r
  | .next (vs, s') =>
    match raw.build.apply vs with
    | none => .refused (.undecodable .modeNotAllowed)
    | some i => .next (i, s')

/-- The state with the pc at the byte after an instruction of `n` bytes: every instruction falls through (R33). -/
def State.fallThrough (s : State) (n : Nat) : State := { s with pc := s.pc + BitVec.ofNat 32 n }

/-- The state with the table-numbered instruction `w` as its program, at its pc (log 2, 40). -/
def State.placeInstr (s : State) (nbits w : Nat) : State := { s with text := tableBytes nbits w, textBase := s.pc }

end Sys2Proof.Machine
end

