-- ==== Sys2Proof/Machine/Step.lean ====
section
/-! DEFINITION. One step of the machine, and the state in which the next step runs a given instruction. -/

namespace Sys2Proof.Machine

/-- One step: the instruction at the pc is parsed, its operand values are read, it is executed to completion, and the pc
moves past its last operand specifier (R14, R33). Bytes that are no instruction are refused by name (R102, R430), and so
is an instruction whose bytes would cross address 2^32 (R33). -/
def step (s : State) : Host.Outcome State Fault Refusal :=
  match parse s.fetchBytes with
  | .error e => .refused (.undecodable e)
  | .ok (raw, n) =>
    if 2 ^ 32 < s.pc.toNat + n then .refused .crossesTop
    else
      match s.resolveInstr raw with
      | .fault r => .fault r
      | .refused r => .refused r
      | .next (i, s') =>
        match exec i s' with
        | .fault r => .fault r
        | .refused r => .refused r
        | .next t => .next (t.fallThrough n)

/-- `s` with the instruction whose bits, numbered as spec/opcode_table.json numbers them, are `w`, stored where `step`
fetches (log 2, 40). -/
def State.withFetchWord (s : State) (nbits w : Nat) : State := s.placeInstr nbits w

end Sys2Proof.Machine
end

