-- ==== Sys2Proof/Machine/Assemble.lean ====
section
/-! DEFINITION. The assembler front end: from a mnemonic, its qualifiers and its operands to the opcode-level instruction,
the control word built from them (R110 to R117, R120; log 41). -/

namespace Sys2Proof

/-- The 126 assembler mnemonics (R116, R117). -/
inductive Mnemonic where
  | vldl | vgathl | vldq | vgathq | vvaddl | vsaddl | vvaddg | vsaddg
  | vvaddf | vsaddf | vvaddd | vsaddd | vvsubl | vssubl | vvsubg | vssubg
  | vvsubf | vssubf | vvsubd | vssubd | vstl | vscatl | vstq | vscatq
  | vvmull | vsmull | vvmulg | vsmulg | vvmulf | vsmulf | vvmuld | vsmuld
  | vvdivg | vsdivg | vvdivf | vsdivf | vvdivd | vsdivd | vvbisl | vsbisl
  | vvbicl | vsbicl | vvsrll | vssrll | vvslll | vsslll | vvxorl | vsxorl
  | iota | vvmerge | vsmerge | vvgtrf | vveqlf | vvlssf | vvleqf | vvneqf
  | vvgeqf | vsgtrf | vseqlf | vslssf | vsleqf | vsneqf | vsgeqf | vvgtrd
  | vveqld | vvlssd | vvleqd | vvneqd | vvgeqd | vsgtrd | vseqld | vslssd
  | vsleqd | vsneqd | vsgeqd | vvgtrg | vveqlg | vvlssg | vvleqg | vvneqg
  | vvgeqg | vsgtrg | vseqlg | vslssg | vsleqg | vsneqg | vsgeqg | vvgtrl
  | vveqll | vvlssl | vvleql | vvneql | vvgeql | vsgtrl | vseqll | vslssl
  | vsleql | vsneql | vsgeql | vvcvtlf | vvcvtld | vvcvtlg | vvcvtfl | vvcvtrfl
  | vvcvtfd | vvcvtfg | vvcvtdl | vvcvtdf | vvcvtrdl | vvcvtgl | vvcvtgf | vvcvtrgl
  | mfvcr | mfvlr | mfvmrlo | mfvmrhi | synch | msynch | mtvcr | mtvlr
  | mtvmrlo | mtvmrhi | vsynch | vsmergef | vsmerged | vsmergeg
  deriving DecidableEq, Repr

/-- The qualifier letters (R111, R114). -/
inductive QualLetter where
  | u | v | m
  deriving DecidableEq, Repr

/-- Qualifiers as written: a letter, then a digit 0 (false) or 1 (true), each optional (R115). -/
structure Quals where
  letter : Option QualLetter
  digit : Option Bool
  deriving DecidableEq, Repr

/-- Which qualifiers a mnemonic takes: its letter and a digit, a digit that sets MOE and MTF, a digit that sets MTF alone, or
none (R112, R113, R115). -/
inductive QualGrammar where
  | letter (l : QualLetter)
  | digit
  | mtf
  | none
  deriving DecidableEq, Repr

/-- An assembler operand: a vector register, a scalar or stride value, an address, or a destination (R116). -/
inductive AsmOperand where
  | vreg (n : VReg)
  | long (x : Longword)
  | quad (x : Quadword)
  | addr (a : Address)
  | dest (d : Dest)
  deriving DecidableEq, Repr

/-- Where the operands of a mnemonic go (R116): the constructor of its opcode, and the function code or register number its
name stands for (R117). -/
inductive AsmShape where
  | vv (f : Cntrl → Instr)
  | vsL (f : Cntrl → Longword → Instr)
  | vsQ (f : Cntrl → Quadword → Instr)
  | vvMerge (f : Cntrl → Instr)
  | vsMerge (f : Cntrl → Quadword → Instr)
  | vvCompare (f : Cntrl → Instr) (rel : Rel)
  | vsCompareL (f : Cntrl → Longword → Instr) (rel : Rel)
  | vsCompareQ (f : Cntrl → Quadword → Instr) (rel : Rel)
  | convert (f : Cntrl → Instr) (k : CvtFunc)
  | iota (f : Cntrl → Longword → Instr)
  | load (f : Cntrl → Address → Longword → Instr)
  | store (f : Cntrl → Address → Longword → Instr)
  | gather (f : Cntrl → Address → Instr)
  | scatter (f : Cntrl → Address → Instr)
  | moveFrom (f : Dest → Instr)
  | moveTo (f : Longword → Instr)
  | sync (f : Word → Instr)

/-- A mnemonic's qualifier grammar and operand shape. -/
structure AsmRow where
  quals : QualGrammar
  shape : AsmShape

/-- The grammar and shape of each mnemonic (R115, R116, R117). -/
def Mnemonic.row : Mnemonic → AsmRow
  | .vldl => ⟨.letter .m, .load .vldl⟩
  | .vgathl => ⟨.letter .m, .gather .vgathl⟩
  | .vldq => ⟨.letter .m, .load .vldq⟩
  | .vgathq => ⟨.letter .m, .gather .vgathq⟩
  | .vvaddl => ⟨.letter .v, .vv .vvaddl⟩
  | .vsaddl => ⟨.letter .v, .vsL .vsaddl⟩
  | .vvaddg => ⟨.letter .u, .vv .vvaddg⟩
  | .vsaddg => ⟨.letter .u, .vsQ .vsaddg⟩
  | .vvaddf => ⟨.letter .u, .vv .vvaddf⟩
  | .vsaddf => ⟨.letter .u, .vsL .vsaddf⟩
  | .vvaddd => ⟨.letter .u, .vv .vvaddd⟩
  | .vsaddd => ⟨.letter .u, .vsQ .vsaddd⟩
  | .vvsubl => ⟨.letter .v, .vv .vvsubl⟩
  | .vssubl => ⟨.letter .v, .vsL .vssubl⟩
  | .vvsubg => ⟨.letter .u, .vv .vvsubg⟩
  | .vssubg => ⟨.letter .u, .vsQ .vssubg⟩
  | .vvsubf => ⟨.letter .u, .vv .vvsubf⟩
  | .vssubf => ⟨.letter .u, .vsL .vssubf⟩
  | .vvsubd => ⟨.letter .u, .vv .vvsubd⟩
  | .vssubd => ⟨.letter .u, .vsQ .vssubd⟩
  | .vstl => ⟨.digit, .store .vstl⟩
  | .vscatl => ⟨.digit, .scatter .vscatl⟩
  | .vstq => ⟨.digit, .store .vstq⟩
  | .vscatq => ⟨.digit, .scatter .vscatq⟩
  | .vvmull => ⟨.letter .v, .vv .vvmull⟩
  | .vsmull => ⟨.letter .v, .vsL .vsmull⟩
  | .vvmulg => ⟨.letter .u, .vv .vvmulg⟩
  | .vsmulg => ⟨.letter .u, .vsQ .vsmulg⟩
  | .vvmulf => ⟨.letter .u, .vv .vvmulf⟩
  | .vsmulf => ⟨.letter .u, .vsL .vsmulf⟩
  | .vvmuld => ⟨.letter .u, .vv .vvmuld⟩
  | .vsmuld => ⟨.letter .u, .vsQ .vsmuld⟩
  | .vvdivg => ⟨.letter .u, .vv .vvdivg⟩
  | .vsdivg => ⟨.letter .u, .vsQ .vsdivg⟩
  | .vvdivf => ⟨.letter .u, .vv .vvdivf⟩
  | .vsdivf => ⟨.letter .u, .vsL .vsdivf⟩
  | .vvdivd => ⟨.letter .u, .vv .vvdivd⟩
  | .vsdivd => ⟨.letter .u, .vsQ .vsdivd⟩
  | .vvbisl => ⟨.digit, .vv .vvbisl⟩
  | .vsbisl => ⟨.digit, .vsL .vsbisl⟩
  | .vvbicl => ⟨.digit, .vv .vvbicl⟩
  | .vsbicl => ⟨.digit, .vsL .vsbicl⟩
  | .vvsrll => ⟨.digit, .vv .vvsrll⟩
  | .vssrll => ⟨.digit, .vsL .vssrll⟩
  | .vvslll => ⟨.digit, .vv .vvslll⟩
  | .vsslll => ⟨.digit, .vsL .vsslll⟩
  | .vvxorl => ⟨.digit, .vv .vvxorl⟩
  | .vsxorl => ⟨.digit, .vsL .vsxorl⟩
  | .iota => ⟨.mtf, .iota .iota⟩
  | .vvmerge => ⟨.mtf, .vvMerge .vvmerge⟩
  | .vsmerge => ⟨.mtf, .vsMerge .vsmerge⟩
  | .vvgtrf => ⟨.digit, .vvCompare .vvcmpf .gtr⟩
  | .vveqlf => ⟨.digit, .vvCompare .vvcmpf .eql⟩
  | .vvlssf => ⟨.digit, .vvCompare .vvcmpf .lss⟩
  | .vvleqf => ⟨.digit, .vvCompare .vvcmpf .leq⟩
  | .vvneqf => ⟨.digit, .vvCompare .vvcmpf .neq⟩
  | .vvgeqf => ⟨.digit, .vvCompare .vvcmpf .geq⟩
  | .vsgtrf => ⟨.digit, .vsCompareL .vscmpf .gtr⟩
  | .vseqlf => ⟨.digit, .vsCompareL .vscmpf .eql⟩
  | .vslssf => ⟨.digit, .vsCompareL .vscmpf .lss⟩
  | .vsleqf => ⟨.digit, .vsCompareL .vscmpf .leq⟩
  | .vsneqf => ⟨.digit, .vsCompareL .vscmpf .neq⟩
  | .vsgeqf => ⟨.digit, .vsCompareL .vscmpf .geq⟩
  | .vvgtrd => ⟨.digit, .vvCompare .vvcmpd .gtr⟩
  | .vveqld => ⟨.digit, .vvCompare .vvcmpd .eql⟩
  | .vvlssd => ⟨.digit, .vvCompare .vvcmpd .lss⟩
  | .vvleqd => ⟨.digit, .vvCompare .vvcmpd .leq⟩
  | .vvneqd => ⟨.digit, .vvCompare .vvcmpd .neq⟩
  | .vvgeqd => ⟨.digit, .vvCompare .vvcmpd .geq⟩
  | .vsgtrd => ⟨.digit, .vsCompareQ .vscmpd .gtr⟩
  | .vseqld => ⟨.digit, .vsCompareQ .vscmpd .eql⟩
  | .vslssd => ⟨.digit, .vsCompareQ .vscmpd .lss⟩
  | .vsleqd => ⟨.digit, .vsCompareQ .vscmpd .leq⟩
  | .vsneqd => ⟨.digit, .vsCompareQ .vscmpd .neq⟩
  | .vsgeqd => ⟨.digit, .vsCompareQ .vscmpd .geq⟩
  | .vvgtrg => ⟨.digit, .vvCompare .vvcmpg .gtr⟩
  | .vveqlg => ⟨.digit, .vvCompare .vvcmpg .eql⟩
  | .vvlssg => ⟨.digit, .vvCompare .vvcmpg .lss⟩
  | .vvleqg => ⟨.digit, .vvCompare .vvcmpg .leq⟩
  | .vvneqg => ⟨.digit, .vvCompare .vvcmpg .neq⟩
  | .vvgeqg => ⟨.digit, .vvCompare .vvcmpg .geq⟩
  | .vsgtrg => ⟨.digit, .vsCompareQ .vscmpg .gtr⟩
  | .vseqlg => ⟨.digit, .vsCompareQ .vscmpg .eql⟩
  | .vslssg => ⟨.digit, .vsCompareQ .vscmpg .lss⟩
  | .vsleqg => ⟨.digit, .vsCompareQ .vscmpg .leq⟩
  | .vsneqg => ⟨.digit, .vsCompareQ .vscmpg .neq⟩
  | .vsgeqg => ⟨.digit, .vsCompareQ .vscmpg .geq⟩
  | .vvgtrl => ⟨.digit, .vvCompare .vvcmpl .gtr⟩
  | .vveqll => ⟨.digit, .vvCompare .vvcmpl .eql⟩
  | .vvlssl => ⟨.digit, .vvCompare .vvcmpl .lss⟩
  | .vvleql => ⟨.digit, .vvCompare .vvcmpl .leq⟩
  | .vvneql => ⟨.digit, .vvCompare .vvcmpl .neq⟩
  | .vvgeql => ⟨.digit, .vvCompare .vvcmpl .geq⟩
  | .vsgtrl => ⟨.digit, .vsCompareL .vscmpl .gtr⟩
  | .vseqll => ⟨.digit, .vsCompareL .vscmpl .eql⟩
  | .vslssl => ⟨.digit, .vsCompareL .vscmpl .lss⟩
  | .vsleql => ⟨.digit, .vsCompareL .vscmpl .leq⟩
  | .vsneql => ⟨.digit, .vsCompareL .vscmpl .neq⟩
  | .vsgeql => ⟨.digit, .vsCompareL .vscmpl .geq⟩
  | .vvcvtlf => ⟨.letter .u, .convert .vvcvt .cvtlf⟩
  | .vvcvtld => ⟨.letter .u, .convert .vvcvt .cvtld⟩
  | .vvcvtlg => ⟨.letter .u, .convert .vvcvt .cvtlg⟩
  | .vvcvtfl => ⟨.letter .u, .convert .vvcvt .cvtfl⟩
  | .vvcvtrfl => ⟨.letter .u, .convert .vvcvt .cvtrfl⟩
  | .vvcvtfd => ⟨.letter .u, .convert .vvcvt .cvtfd⟩
  | .vvcvtfg => ⟨.letter .u, .convert .vvcvt .cvtfg⟩
  | .vvcvtdl => ⟨.letter .u, .convert .vvcvt .cvtdl⟩
  | .vvcvtdf => ⟨.letter .u, .convert .vvcvt .cvtdf⟩
  | .vvcvtrdl => ⟨.letter .u, .convert .vvcvt .cvtrdl⟩
  | .vvcvtgl => ⟨.letter .u, .convert .vvcvt .cvtgl⟩
  | .vvcvtgf => ⟨.letter .u, .convert .vvcvt .cvtgf⟩
  | .vvcvtrgl => ⟨.letter .u, .convert .vvcvt .cvtrgl⟩
  | .mfvcr => ⟨.none, .moveFrom (.mfvp regnumVCR)⟩
  | .mfvlr => ⟨.none, .moveFrom (.mfvp regnumVLR)⟩
  | .mfvmrlo => ⟨.none, .moveFrom (.mfvp regnumVMRLO)⟩
  | .mfvmrhi => ⟨.none, .moveFrom (.mfvp regnumVMRHI)⟩
  | .synch => ⟨.none, .moveFrom (.mfvp regnumSYNC)⟩
  | .msynch => ⟨.none, .moveFrom (.mfvp regnumMSYNC)⟩
  | .mtvcr => ⟨.none, .moveTo (.mtvp regnumVCR)⟩
  | .mtvlr => ⟨.none, .moveTo (.mtvp regnumVLR)⟩
  | .mtvmrlo => ⟨.none, .moveTo (.mtvp regnumVMRLO)⟩
  | .mtvmrhi => ⟨.none, .moveTo (.mtvp regnumVMRHI)⟩
  | .vsynch => ⟨.none, .sync .vsync⟩
  | .vsmergef => ⟨.mtf, .vsMerge .vsmerge⟩
  | .vsmerged => ⟨.mtf, .vsMerge .vsmerge⟩
  | .vsmergeg => ⟨.mtf, .vsMerge .vsmerge⟩

/-- Whether a mnemonic takes these qualifiers: a letter with no bit to set is refused (R115). -/
def QualGrammar.takes : QualGrammar → Quals → Bool
  | .letter l, q => q.letter == Option.none || q.letter == some l
  | .digit, q => q.letter == Option.none
  | .mtf, q => q.letter == Option.none
  | .none, q => q.letter == Option.none && q.digit == Option.none

/-- Bit 13: EXC or MI, set by a letter (R111, R114). -/
def Quals.bit13 (q : Quals) : Bool := q.letter.isSome

/-- MOE and MTF of masked operation, from the digit (R112). -/
def Quals.mask (q : Quals) : MaskQual :=
  match q.digit with
  | none => .all
  | some false => .on0
  | some true => .on1

/-- MTF of VMERGE and IOTA, 1 by default (R113). -/
def Quals.mtf (q : Quals) : Bool := q.digit.getD true

/-- The instruction a shape makes of operands in the assembler's order (R116). -/
def AsmShape.build (q : Quals) : AsmShape → List AsmOperand → Option Instr
  | .vv f, [.vreg va, .vreg vb, .vreg vc] => some (f (Cntrl.vv q.bit13 q.mask va vb vc))
  | .vsL f, [.long x, .vreg vb, .vreg vc] => some (f (Cntrl.vs q.bit13 q.mask vb vc) x)
  | .vsQ f, [.quad x, .vreg vb, .vreg vc] => some (f (Cntrl.vs q.bit13 q.mask vb vc) x)
  | .vvMerge f, [.vreg va, .vreg vb, .vreg vc] => some (f (Cntrl.vvMerge q.mtf va vb vc))
  | .vsMerge f, [.quad x, .vreg vb, .vreg vc] => some (f (Cntrl.vsMerge q.mtf vb vc) x)
  | .vvCompare f rel, [.vreg va, .vreg vb] => some (f (Cntrl.vvCmp q.mask va vb rel))
  | .vsCompareL f rel, [.long x, .vreg vb] => some (f (Cntrl.vsCmp q.mask vb rel) x)
  | .vsCompareQ f rel, [.quad x, .vreg vb] => some (f (Cntrl.vsCmp q.mask vb rel) x)
  | .convert f k, [.vreg vb, .vreg vc] => some (f (Cntrl.cvt k q.bit13 q.mask vb vc))
  | .iota f, [.long stride, .vreg vc] => some (f (Cntrl.iota q.mtf vc) stride)
  | .load f, [.addr base, .long stride, .vreg vc] => some (f (Cntrl.strided q.bit13 q.mask vc) base stride)
  | .store f, [.vreg vc, .addr base, .long stride] => some (f (Cntrl.strided q.bit13 q.mask vc) base stride)
  | .gather f, [.addr base, .vreg vb, .vreg vc] => some (f (Cntrl.vs q.bit13 q.mask vb vc) base)
  | .scatter f, [.vreg vc, .addr base, .vreg vb] => some (f (Cntrl.vs q.bit13 q.mask vb vc) base)
  | .moveFrom f, [.dest d] => some (f d)
  | .moveTo f, [.long x] => some (f x)
  | .sync f, [] => some (f 0)
  | _, _ => none

/-- The opcode-level instruction that a line of assembler text stands for; none where the qualifiers or the operands are not
those of the mnemonic (R110, R115, R116). -/
def assemble (m : Mnemonic) (q : Quals) (operands : List AsmOperand) : Option Instr :=
  if m.row.quals.takes q then m.row.shape.build q operands else none

end Sys2Proof
end

