-- ==== Sys2Proof/Safety.lean ====
section
/-! DEFINITION. The terms that claims are stated in: which elements an instruction processes, what it may write and raise,
what stays unchanged, and the invariant of the machine. -/

namespace Sys2Proof

/-- The instruction families, `scalar` saying whether the first operand is a scalar. -/
inductive Kind where
  | floatArith (op : FOp) (scalar : Bool)
  | intArith (scalar : Bool)
  | logical (scalar : Bool)
  | shift (scalar : Bool)
  | floatCompare (scalar : Bool)
  | intCompare (scalar : Bool)
  | convert
  | merge (scalar : Bool)
  | iota
  | load
  | gather
  | store
  | scatter
  | control
  deriving DecidableEq, Repr

/-- The family of an instruction. -/
def Instr.kind : Instr → Kind
  | .mfvp _ _ => .control
  | .vldl _ _ _ => .load
  | .vgathl _ _ => .gather
  | .vldq _ _ _ => .load
  | .vgathq _ _ => .gather
  | .vvaddl _ => .intArith false
  | .vsaddl _ _ => .intArith true
  | .vvaddg _ => .floatArith .add false
  | .vsaddg _ _ => .floatArith .add true
  | .vvaddf _ => .floatArith .add false
  | .vsaddf _ _ => .floatArith .add true
  | .vvaddd _ => .floatArith .add false
  | .vsaddd _ _ => .floatArith .add true
  | .vvsubl _ => .intArith false
  | .vssubl _ _ => .intArith true
  | .vvsubg _ => .floatArith .sub false
  | .vssubg _ _ => .floatArith .sub true
  | .vvsubf _ => .floatArith .sub false
  | .vssubf _ _ => .floatArith .sub true
  | .vvsubd _ => .floatArith .sub false
  | .vssubd _ _ => .floatArith .sub true
  | .vstl _ _ _ => .store
  | .vscatl _ _ => .scatter
  | .vstq _ _ _ => .store
  | .vscatq _ _ => .scatter
  | .vvmull _ => .intArith false
  | .vsmull _ _ => .intArith true
  | .vvmulg _ => .floatArith .mul false
  | .vsmulg _ _ => .floatArith .mul true
  | .vvmulf _ => .floatArith .mul false
  | .vsmulf _ _ => .floatArith .mul true
  | .vvmuld _ => .floatArith .mul false
  | .vsmuld _ _ => .floatArith .mul true
  | .vsync _ => .control
  | .mtvp _ _ => .control
  | .vvdivg _ => .floatArith .div false
  | .vsdivg _ _ => .floatArith .div true
  | .vvdivf _ => .floatArith .div false
  | .vsdivf _ _ => .floatArith .div true
  | .vvdivd _ => .floatArith .div false
  | .vsdivd _ _ => .floatArith .div true
  | .vvcmpl _ => .intCompare false
  | .vscmpl _ _ => .intCompare true
  | .vvcmpg _ => .floatCompare false
  | .vscmpg _ _ => .floatCompare true
  | .vvcmpf _ => .floatCompare false
  | .vscmpf _ _ => .floatCompare true
  | .vvcmpd _ => .floatCompare false
  | .vscmpd _ _ => .floatCompare true
  | .vvbisl _ => .logical false
  | .vsbisl _ _ => .logical true
  | .vvbicl _ => .logical false
  | .vsbicl _ _ => .logical true
  | .vvsrll _ => .shift false
  | .vssrll _ _ => .shift true
  | .vvslll _ => .shift false
  | .vsslll _ _ => .shift true
  | .vvxorl _ => .logical false
  | .vsxorl _ _ => .logical true
  | .vvcvt _ => .convert
  | .iota _ _ => .iota
  | .vvmerge _ => .merge false
  | .vsmerge _ _ => .merge true
  | .vvgtrf _ _ _ => .floatCompare false
  | .vveqlf _ _ _ => .floatCompare false
  | .vvlssf _ _ _ => .floatCompare false
  | .vvleqf _ _ _ => .floatCompare false
  | .vvneqf _ _ _ => .floatCompare false
  | .vvgeqf _ _ _ => .floatCompare false
  | .vsgtrf _ _ _ => .floatCompare true
  | .vseqlf _ _ _ => .floatCompare true
  | .vslssf _ _ _ => .floatCompare true
  | .vsleqf _ _ _ => .floatCompare true
  | .vsneqf _ _ _ => .floatCompare true
  | .vsgeqf _ _ _ => .floatCompare true
  | .vvgtrd _ _ _ => .floatCompare false
  | .vveqld _ _ _ => .floatCompare false
  | .vvlssd _ _ _ => .floatCompare false
  | .vvleqd _ _ _ => .floatCompare false
  | .vvneqd _ _ _ => .floatCompare false
  | .vvgeqd _ _ _ => .floatCompare false
  | .vsgtrd _ _ _ => .floatCompare true
  | .vseqld _ _ _ => .floatCompare true
  | .vslssd _ _ _ => .floatCompare true
  | .vsleqd _ _ _ => .floatCompare true
  | .vsneqd _ _ _ => .floatCompare true
  | .vsgeqd _ _ _ => .floatCompare true
  | .vvgtrg _ _ _ => .floatCompare false
  | .vveqlg _ _ _ => .floatCompare false
  | .vvlssg _ _ _ => .floatCompare false
  | .vvleqg _ _ _ => .floatCompare false
  | .vvneqg _ _ _ => .floatCompare false
  | .vvgeqg _ _ _ => .floatCompare false
  | .vsgtrg _ _ _ => .floatCompare true
  | .vseqlg _ _ _ => .floatCompare true
  | .vslssg _ _ _ => .floatCompare true
  | .vsleqg _ _ _ => .floatCompare true
  | .vsneqg _ _ _ => .floatCompare true
  | .vsgeqg _ _ _ => .floatCompare true
  | .vvgtrl _ _ _ => .intCompare false
  | .vveqll _ _ _ => .intCompare false
  | .vvlssl _ _ _ => .intCompare false
  | .vvleql _ _ _ => .intCompare false
  | .vvneql _ _ _ => .intCompare false
  | .vvgeql _ _ _ => .intCompare false
  | .vsgtrl _ _ _ => .intCompare true
  | .vseqll _ _ _ => .intCompare true
  | .vslssl _ _ _ => .intCompare true
  | .vsleql _ _ _ => .intCompare true
  | .vsneql _ _ _ => .intCompare true
  | .vsgeql _ _ _ => .intCompare true
  | .vvcvtlf _ _ _ _ => .convert
  | .vvcvtld _ _ _ _ => .convert
  | .vvcvtlg _ _ _ _ => .convert
  | .vvcvtfl _ _ _ _ => .convert
  | .vvcvtrfl _ _ _ _ => .convert
  | .vvcvtfd _ _ _ _ => .convert
  | .vvcvtfg _ _ _ _ => .convert
  | .vvcvtdl _ _ _ _ => .convert
  | .vvcvtdf _ _ _ _ => .convert
  | .vvcvtrdl _ _ _ _ => .convert
  | .vvcvtgl _ _ _ _ => .convert
  | .vvcvtgf _ _ _ _ => .convert
  | .vvcvtrgl _ _ _ _ => .convert
  | .mfvcr _ => .control
  | .mfvlr _ => .control
  | .mfvmrlo _ => .control
  | .mfvmrhi _ => .control
  | .synch _ => .control
  | .msynch _ => .control
  | .mtvcr _ => .control
  | .mtvlr _ => .control
  | .mtvmrlo _ => .control
  | .mtvmrhi _ => .control
  | .vsynch => .control
  | .vsmergef _ _ _ _ => .merge true
  | .vsmerged _ _ _ _ => .merge true
  | .vsmergeg _ _ _ _ => .merge true

/-- The vector control word of an instruction; MFVP, MTVP and VSYNC have none (R140). -/
def Instr.cntrl : Instr → Option Cntrl
  | .mfvp _ _ => none
  | .vldl c _ _ => some c
  | .vgathl c _ => some c
  | .vldq c _ _ => some c
  | .vgathq c _ => some c
  | .vvaddl c => some c
  | .vsaddl c _ => some c
  | .vvaddg c => some c
  | .vsaddg c _ => some c
  | .vvaddf c => some c
  | .vsaddf c _ => some c
  | .vvaddd c => some c
  | .vsaddd c _ => some c
  | .vvsubl c => some c
  | .vssubl c _ => some c
  | .vvsubg c => some c
  | .vssubg c _ => some c
  | .vvsubf c => some c
  | .vssubf c _ => some c
  | .vvsubd c => some c
  | .vssubd c _ => some c
  | .vstl c _ _ => some c
  | .vscatl c _ => some c
  | .vstq c _ _ => some c
  | .vscatq c _ => some c
  | .vvmull c => some c
  | .vsmull c _ => some c
  | .vvmulg c => some c
  | .vsmulg c _ => some c
  | .vvmulf c => some c
  | .vsmulf c _ => some c
  | .vvmuld c => some c
  | .vsmuld c _ => some c
  | .vsync _ => none
  | .mtvp _ _ => none
  | .vvdivg c => some c
  | .vsdivg c _ => some c
  | .vvdivf c => some c
  | .vsdivf c _ => some c
  | .vvdivd c => some c
  | .vsdivd c _ => some c
  | .vvcmpl c => some c
  | .vscmpl c _ => some c
  | .vvcmpg c => some c
  | .vscmpg c _ => some c
  | .vvcmpf c => some c
  | .vscmpf c _ => some c
  | .vvcmpd c => some c
  | .vscmpd c _ => some c
  | .vvbisl c => some c
  | .vsbisl c _ => some c
  | .vvbicl c => some c
  | .vsbicl c _ => some c
  | .vvsrll c => some c
  | .vssrll c _ => some c
  | .vvslll c => some c
  | .vsslll c _ => some c
  | .vvxorl c => some c
  | .vsxorl c _ => some c
  | .vvcvt c => some c
  | .iota c _ => some c
  | .vvmerge c => some c
  | .vsmerge c _ => some c
  | .vvgtrf q va vb => some (Cntrl.vvCmp q va vb .gtr)
  | .vveqlf q va vb => some (Cntrl.vvCmp q va vb .eql)
  | .vvlssf q va vb => some (Cntrl.vvCmp q va vb .lss)
  | .vvleqf q va vb => some (Cntrl.vvCmp q va vb .leq)
  | .vvneqf q va vb => some (Cntrl.vvCmp q va vb .neq)
  | .vvgeqf q va vb => some (Cntrl.vvCmp q va vb .geq)
  | .vsgtrf q _ vb => some (Cntrl.vsCmp q vb .gtr)
  | .vseqlf q _ vb => some (Cntrl.vsCmp q vb .eql)
  | .vslssf q _ vb => some (Cntrl.vsCmp q vb .lss)
  | .vsleqf q _ vb => some (Cntrl.vsCmp q vb .leq)
  | .vsneqf q _ vb => some (Cntrl.vsCmp q vb .neq)
  | .vsgeqf q _ vb => some (Cntrl.vsCmp q vb .geq)
  | .vvgtrd q va vb => some (Cntrl.vvCmp q va vb .gtr)
  | .vveqld q va vb => some (Cntrl.vvCmp q va vb .eql)
  | .vvlssd q va vb => some (Cntrl.vvCmp q va vb .lss)
  | .vvleqd q va vb => some (Cntrl.vvCmp q va vb .leq)
  | .vvneqd q va vb => some (Cntrl.vvCmp q va vb .neq)
  | .vvgeqd q va vb => some (Cntrl.vvCmp q va vb .geq)
  | .vsgtrd q _ vb => some (Cntrl.vsCmp q vb .gtr)
  | .vseqld q _ vb => some (Cntrl.vsCmp q vb .eql)
  | .vslssd q _ vb => some (Cntrl.vsCmp q vb .lss)
  | .vsleqd q _ vb => some (Cntrl.vsCmp q vb .leq)
  | .vsneqd q _ vb => some (Cntrl.vsCmp q vb .neq)
  | .vsgeqd q _ vb => some (Cntrl.vsCmp q vb .geq)
  | .vvgtrg q va vb => some (Cntrl.vvCmp q va vb .gtr)
  | .vveqlg q va vb => some (Cntrl.vvCmp q va vb .eql)
  | .vvlssg q va vb => some (Cntrl.vvCmp q va vb .lss)
  | .vvleqg q va vb => some (Cntrl.vvCmp q va vb .leq)
  | .vvneqg q va vb => some (Cntrl.vvCmp q va vb .neq)
  | .vvgeqg q va vb => some (Cntrl.vvCmp q va vb .geq)
  | .vsgtrg q _ vb => some (Cntrl.vsCmp q vb .gtr)
  | .vseqlg q _ vb => some (Cntrl.vsCmp q vb .eql)
  | .vslssg q _ vb => some (Cntrl.vsCmp q vb .lss)
  | .vsleqg q _ vb => some (Cntrl.vsCmp q vb .leq)
  | .vsneqg q _ vb => some (Cntrl.vsCmp q vb .neq)
  | .vsgeqg q _ vb => some (Cntrl.vsCmp q vb .geq)
  | .vvgtrl q va vb => some (Cntrl.vvCmp q va vb .gtr)
  | .vveqll q va vb => some (Cntrl.vvCmp q va vb .eql)
  | .vvlssl q va vb => some (Cntrl.vvCmp q va vb .lss)
  | .vvleql q va vb => some (Cntrl.vvCmp q va vb .leq)
  | .vvneql q va vb => some (Cntrl.vvCmp q va vb .neq)
  | .vvgeql q va vb => some (Cntrl.vvCmp q va vb .geq)
  | .vsgtrl q _ vb => some (Cntrl.vsCmp q vb .gtr)
  | .vseqll q _ vb => some (Cntrl.vsCmp q vb .eql)
  | .vslssl q _ vb => some (Cntrl.vsCmp q vb .lss)
  | .vsleql q _ vb => some (Cntrl.vsCmp q vb .leq)
  | .vsneql q _ vb => some (Cntrl.vsCmp q vb .neq)
  | .vsgeql q _ vb => some (Cntrl.vsCmp q vb .geq)
  | .vvcvtlf u q vb vc => some (Cntrl.cvt .cvtlf u q vb vc)
  | .vvcvtld u q vb vc => some (Cntrl.cvt .cvtld u q vb vc)
  | .vvcvtlg u q vb vc => some (Cntrl.cvt .cvtlg u q vb vc)
  | .vvcvtfl u q vb vc => some (Cntrl.cvt .cvtfl u q vb vc)
  | .vvcvtrfl u q vb vc => some (Cntrl.cvt .cvtrfl u q vb vc)
  | .vvcvtfd u q vb vc => some (Cntrl.cvt .cvtfd u q vb vc)
  | .vvcvtfg u q vb vc => some (Cntrl.cvt .cvtfg u q vb vc)
  | .vvcvtdl u q vb vc => some (Cntrl.cvt .cvtdl u q vb vc)
  | .vvcvtdf u q vb vc => some (Cntrl.cvt .cvtdf u q vb vc)
  | .vvcvtrdl u q vb vc => some (Cntrl.cvt .cvtrdl u q vb vc)
  | .vvcvtgl u q vb vc => some (Cntrl.cvt .cvtgl u q vb vc)
  | .vvcvtgf u q vb vc => some (Cntrl.cvt .cvtgf u q vb vc)
  | .vvcvtrgl u q vb vc => some (Cntrl.cvt .cvtrgl u q vb vc)
  | .mfvcr _ => none
  | .mfvlr _ => none
  | .mfvmrlo _ => none
  | .mfvmrhi _ => none
  | .synch _ => none
  | .msynch _ => none
  | .mtvcr _ => none
  | .mtvlr _ => none
  | .mtvmrlo _ => none
  | .mtvmrhi _ => none
  | .vsynch => none
  | .vsmergef mtf _ vb vc => some (Cntrl.vsMerge mtf vb vc)
  | .vsmerged mtf _ vb vc => some (Cntrl.vsMerge mtf vb vc)
  | .vsmergeg mtf _ vb vc => some (Cntrl.vsMerge mtf vb vc)

/-- The fields of the control word that the figures draw as 0 (R86). -/
def Kind.mbz : Kind → Cntrl
  | .floatArith _ scalar => if scalar then mbzVS else mbzVV
  | .intArith scalar => if scalar then mbzVS else mbzVV
  | .logical scalar => if scalar then mbzVSNoExc else mbzVVNoExc
  | .shift scalar => if scalar then mbzVSNoExc else mbzVVNoExc
  | .floatCompare scalar => if scalar then mbzVSNoExc else mbzVVNoExc
  | .intCompare scalar => if scalar then mbzVSNoExc else mbzVVNoExc
  | .convert => mbzVV
  | .merge scalar => if scalar then mbzVSMerge else mbzVVMerge
  | .iota => mbzIota
  | .load => mbzLoad
  | .gather => mbzGather
  | .store => mbzStore
  | .scatter => mbzScatter
  | .control => 0

/-! ### What the assembler is to answer -/

/-- The sort of an assembler operand (R116). -/
inductive AsmSort where
  | vreg | long | quad | addr | dest
  deriving DecidableEq, Repr

/-- The sort of an operand. -/
def AsmOperand.sort : AsmOperand → AsmSort
  | .vreg _ => .vreg
  | .long _ => .long
  | .quad _ => .quad
  | .addr _ => .addr
  | .dest _ => .dest

/-- A vector register operand's number. -/
def AsmOperand.register : AsmOperand → Option VReg
  | .vreg n => some n
  | .long _ => none
  | .quad _ => none
  | .addr _ => none
  | .dest _ => none

/-- An operand as an instruction-stream operand, in the encoder's modes (log 46); a vector register is none (R110). -/
def AsmOperand.bytes : AsmOperand → List Byte
  | .vreg _ => []
  | .long x => immLong x
  | .quad x => immQuad x
  | .addr a => absAddr a
  | .dest d => destBytes d

/-- The rows of R116. -/
inductive AsmLayout where
  | vv | vsL | vsQ | compareVV | compareVSL | compareVSQ | convert | iota
  | load | store | gather | scatter | moveFrom | moveTo | sync
  deriving DecidableEq, Repr

/-- The assembler operands of a row, in order (R116). -/
def AsmLayout.sorts : AsmLayout → List AsmSort
  | .vv => [.vreg, .vreg, .vreg]
  | .vsL => [.long, .vreg, .vreg]
  | .vsQ => [.quad, .vreg, .vreg]
  | .compareVV => [.vreg, .vreg]
  | .compareVSL => [.long, .vreg]
  | .compareVSQ => [.quad, .vreg]
  | .convert => [.vreg, .vreg]
  | .iota => [.long, .vreg]
  | .load => [.addr, .long, .vreg]
  | .store => [.vreg, .addr, .long]
  | .gather => [.addr, .vreg, .vreg]
  | .scatter => [.vreg, .addr, .vreg]
  | .moveFrom => [.dest]
  | .moveTo => [.long]
  | .sync => []

/-- The lowest control-word bit of the field each vector register operand goes to: Va 8, Vb 4, Vc 0 (R85, R116). -/
def AsmLayout.fields : AsmLayout → List Nat
  | .vv => [8, 4, 0]
  | .vsL => [4, 0]
  | .vsQ => [4, 0]
  | .compareVV => [8, 4]
  | .compareVSL => [4]
  | .compareVSQ => [4]
  | .convert => [4, 0]
  | .iota => [0]
  | .load => [0]
  | .store => [0]
  | .gather => [4, 0]
  | .scatter => [0, 4]
  | .moveFrom => []
  | .moveTo => []
  | .sync => []

/-- What a qualifier digit sets: MOE and MTF, MTF alone, or nothing (R112, R113, R115). -/
inductive DigitUse where
  | mask | mtf | none
  deriving DecidableEq, Repr

/-- A mnemonic by the tables of the spec: the second opcode byte, the qualifier letter it takes, what a digit sets, the
function code or register number its name stands for, in its place in the first operand, and its row of R116. -/
structure AsmSpec where
  code : Byte
  letter : Option QualLetter
  digit : DigitUse
  func : Word
  layout : AsmLayout
  deriving DecidableEq, Repr

/-- The mnemonics, as spec/opcode_table.json and the tables of R115 and R116 list them. -/
def Mnemonic.spec : Mnemonic → AsmSpec
  | .vldl => ⟨0x34, some .m, .mask, 0x0000, .load⟩
  | .vgathl => ⟨0x35, some .m, .mask, 0x0000, .gather⟩
  | .vldq => ⟨0x36, some .m, .mask, 0x0000, .load⟩
  | .vgathq => ⟨0x37, some .m, .mask, 0x0000, .gather⟩
  | .vvaddl => ⟨0x80, some .v, .mask, 0x0000, .vv⟩
  | .vsaddl => ⟨0x81, some .v, .mask, 0x0000, .vsL⟩
  | .vvaddg => ⟨0x82, some .u, .mask, 0x0000, .vv⟩
  | .vsaddg => ⟨0x83, some .u, .mask, 0x0000, .vsQ⟩
  | .vvaddf => ⟨0x84, some .u, .mask, 0x0000, .vv⟩
  | .vsaddf => ⟨0x85, some .u, .mask, 0x0000, .vsL⟩
  | .vvaddd => ⟨0x86, some .u, .mask, 0x0000, .vv⟩
  | .vsaddd => ⟨0x87, some .u, .mask, 0x0000, .vsQ⟩
  | .vvsubl => ⟨0x88, some .v, .mask, 0x0000, .vv⟩
  | .vssubl => ⟨0x89, some .v, .mask, 0x0000, .vsL⟩
  | .vvsubg => ⟨0x8A, some .u, .mask, 0x0000, .vv⟩
  | .vssubg => ⟨0x8B, some .u, .mask, 0x0000, .vsQ⟩
  | .vvsubf => ⟨0x8C, some .u, .mask, 0x0000, .vv⟩
  | .vssubf => ⟨0x8D, some .u, .mask, 0x0000, .vsL⟩
  | .vvsubd => ⟨0x8E, some .u, .mask, 0x0000, .vv⟩
  | .vssubd => ⟨0x8F, some .u, .mask, 0x0000, .vsQ⟩
  | .vstl => ⟨0x9C, none, .mask, 0x0000, .store⟩
  | .vscatl => ⟨0x9D, none, .mask, 0x0000, .scatter⟩
  | .vstq => ⟨0x9E, none, .mask, 0x0000, .store⟩
  | .vscatq => ⟨0x9F, none, .mask, 0x0000, .scatter⟩
  | .vvmull => ⟨0xA0, some .v, .mask, 0x0000, .vv⟩
  | .vsmull => ⟨0xA1, some .v, .mask, 0x0000, .vsL⟩
  | .vvmulg => ⟨0xA2, some .u, .mask, 0x0000, .vv⟩
  | .vsmulg => ⟨0xA3, some .u, .mask, 0x0000, .vsQ⟩
  | .vvmulf => ⟨0xA4, some .u, .mask, 0x0000, .vv⟩
  | .vsmulf => ⟨0xA5, some .u, .mask, 0x0000, .vsL⟩
  | .vvmuld => ⟨0xA6, some .u, .mask, 0x0000, .vv⟩
  | .vsmuld => ⟨0xA7, some .u, .mask, 0x0000, .vsQ⟩
  | .vvdivg => ⟨0xAA, some .u, .mask, 0x0000, .vv⟩
  | .vsdivg => ⟨0xAB, some .u, .mask, 0x0000, .vsQ⟩
  | .vvdivf => ⟨0xAC, some .u, .mask, 0x0000, .vv⟩
  | .vsdivf => ⟨0xAD, some .u, .mask, 0x0000, .vsL⟩
  | .vvdivd => ⟨0xAE, some .u, .mask, 0x0000, .vv⟩
  | .vsdivd => ⟨0xAF, some .u, .mask, 0x0000, .vsQ⟩
  | .vvbisl => ⟨0xC8, none, .mask, 0x0000, .vv⟩
  | .vsbisl => ⟨0xC9, none, .mask, 0x0000, .vsL⟩
  | .vvbicl => ⟨0xCC, none, .mask, 0x0000, .vv⟩
  | .vsbicl => ⟨0xCD, none, .mask, 0x0000, .vsL⟩
  | .vvsrll => ⟨0xE0, none, .mask, 0x0000, .vv⟩
  | .vssrll => ⟨0xE1, none, .mask, 0x0000, .vsL⟩
  | .vvslll => ⟨0xE4, none, .mask, 0x0000, .vv⟩
  | .vsslll => ⟨0xE5, none, .mask, 0x0000, .vsL⟩
  | .vvxorl => ⟨0xE8, none, .mask, 0x0000, .vv⟩
  | .vsxorl => ⟨0xE9, none, .mask, 0x0000, .vsL⟩
  | .iota => ⟨0xED, none, .mtf, 0x0000, .iota⟩
  | .vvmerge => ⟨0xEE, none, .mtf, 0x0000, .vv⟩
  | .vsmerge => ⟨0xEF, none, .mtf, 0x0000, .vsQ⟩
  | .vvgtrf => ⟨0xC4, none, .mask, 0x0000, .compareVV⟩
  | .vveqlf => ⟨0xC4, none, .mask, 0x0001, .compareVV⟩
  | .vvlssf => ⟨0xC4, none, .mask, 0x0002, .compareVV⟩
  | .vvleqf => ⟨0xC4, none, .mask, 0x0004, .compareVV⟩
  | .vvneqf => ⟨0xC4, none, .mask, 0x0005, .compareVV⟩
  | .vvgeqf => ⟨0xC4, none, .mask, 0x0006, .compareVV⟩
  | .vsgtrf => ⟨0xC5, none, .mask, 0x0000, .compareVSL⟩
  | .vseqlf => ⟨0xC5, none, .mask, 0x0001, .compareVSL⟩
  | .vslssf => ⟨0xC5, none, .mask, 0x0002, .compareVSL⟩
  | .vsleqf => ⟨0xC5, none, .mask, 0x0004, .compareVSL⟩
  | .vsneqf => ⟨0xC5, none, .mask, 0x0005, .compareVSL⟩
  | .vsgeqf => ⟨0xC5, none, .mask, 0x0006, .compareVSL⟩
  | .vvgtrd => ⟨0xC6, none, .mask, 0x0000, .compareVV⟩
  | .vveqld => ⟨0xC6, none, .mask, 0x0001, .compareVV⟩
  | .vvlssd => ⟨0xC6, none, .mask, 0x0002, .compareVV⟩
  | .vvleqd => ⟨0xC6, none, .mask, 0x0004, .compareVV⟩
  | .vvneqd => ⟨0xC6, none, .mask, 0x0005, .compareVV⟩
  | .vvgeqd => ⟨0xC6, none, .mask, 0x0006, .compareVV⟩
  | .vsgtrd => ⟨0xC7, none, .mask, 0x0000, .compareVSQ⟩
  | .vseqld => ⟨0xC7, none, .mask, 0x0001, .compareVSQ⟩
  | .vslssd => ⟨0xC7, none, .mask, 0x0002, .compareVSQ⟩
  | .vsleqd => ⟨0xC7, none, .mask, 0x0004, .compareVSQ⟩
  | .vsneqd => ⟨0xC7, none, .mask, 0x0005, .compareVSQ⟩
  | .vsgeqd => ⟨0xC7, none, .mask, 0x0006, .compareVSQ⟩
  | .vvgtrg => ⟨0xC2, none, .mask, 0x0000, .compareVV⟩
  | .vveqlg => ⟨0xC2, none, .mask, 0x0001, .compareVV⟩
  | .vvlssg => ⟨0xC2, none, .mask, 0x0002, .compareVV⟩
  | .vvleqg => ⟨0xC2, none, .mask, 0x0004, .compareVV⟩
  | .vvneqg => ⟨0xC2, none, .mask, 0x0005, .compareVV⟩
  | .vvgeqg => ⟨0xC2, none, .mask, 0x0006, .compareVV⟩
  | .vsgtrg => ⟨0xC3, none, .mask, 0x0000, .compareVSQ⟩
  | .vseqlg => ⟨0xC3, none, .mask, 0x0001, .compareVSQ⟩
  | .vslssg => ⟨0xC3, none, .mask, 0x0002, .compareVSQ⟩
  | .vsleqg => ⟨0xC3, none, .mask, 0x0004, .compareVSQ⟩
  | .vsneqg => ⟨0xC3, none, .mask, 0x0005, .compareVSQ⟩
  | .vsgeqg => ⟨0xC3, none, .mask, 0x0006, .compareVSQ⟩
  | .vvgtrl => ⟨0xC0, none, .mask, 0x0000, .compareVV⟩
  | .vveqll => ⟨0xC0, none, .mask, 0x0001, .compareVV⟩
  | .vvlssl => ⟨0xC0, none, .mask, 0x0002, .compareVV⟩
  | .vvleql => ⟨0xC0, none, .mask, 0x0004, .compareVV⟩
  | .vvneql => ⟨0xC0, none, .mask, 0x0005, .compareVV⟩
  | .vvgeql => ⟨0xC0, none, .mask, 0x0006, .compareVV⟩
  | .vsgtrl => ⟨0xC1, none, .mask, 0x0000, .compareVSL⟩
  | .vseqll => ⟨0xC1, none, .mask, 0x0001, .compareVSL⟩
  | .vslssl => ⟨0xC1, none, .mask, 0x0002, .compareVSL⟩
  | .vsleql => ⟨0xC1, none, .mask, 0x0004, .compareVSL⟩
  | .vsneql => ⟨0xC1, none, .mask, 0x0005, .compareVSL⟩
  | .vsgeql => ⟨0xC1, none, .mask, 0x0006, .compareVSL⟩
  | .vvcvtlf => ⟨0xEC, some .u, .mask, 0x0100, .convert⟩
  | .vvcvtld => ⟨0xEC, some .u, .mask, 0x0200, .convert⟩
  | .vvcvtlg => ⟨0xEC, some .u, .mask, 0x0300, .convert⟩
  | .vvcvtfl => ⟨0xEC, some .u, .mask, 0x0400, .convert⟩
  | .vvcvtrfl => ⟨0xEC, some .u, .mask, 0x0500, .convert⟩
  | .vvcvtfd => ⟨0xEC, some .u, .mask, 0x0600, .convert⟩
  | .vvcvtfg => ⟨0xEC, some .u, .mask, 0x0700, .convert⟩
  | .vvcvtdl => ⟨0xEC, some .u, .mask, 0x0800, .convert⟩
  | .vvcvtdf => ⟨0xEC, some .u, .mask, 0x0900, .convert⟩
  | .vvcvtrdl => ⟨0xEC, some .u, .mask, 0x0A00, .convert⟩
  | .vvcvtgl => ⟨0xEC, some .u, .mask, 0x0C00, .convert⟩
  | .vvcvtgf => ⟨0xEC, some .u, .mask, 0x0D00, .convert⟩
  | .vvcvtrgl => ⟨0xEC, some .u, .mask, 0x0F00, .convert⟩
  | .mfvcr => ⟨0x31, none, .none, 0x0000, .moveFrom⟩
  | .mfvlr => ⟨0x31, none, .none, 0x0001, .moveFrom⟩
  | .mfvmrlo => ⟨0x31, none, .none, 0x0002, .moveFrom⟩
  | .mfvmrhi => ⟨0x31, none, .none, 0x0003, .moveFrom⟩
  | .synch => ⟨0x31, none, .none, 0x0004, .moveFrom⟩
  | .msynch => ⟨0x31, none, .none, 0x0005, .moveFrom⟩
  | .mtvcr => ⟨0xA9, none, .none, 0x0000, .moveTo⟩
  | .mtvlr => ⟨0xA9, none, .none, 0x0001, .moveTo⟩
  | .mtvmrlo => ⟨0xA9, none, .none, 0x0002, .moveTo⟩
  | .mtvmrhi => ⟨0xA9, none, .none, 0x0003, .moveTo⟩
  | .vsynch => ⟨0xA8, none, .none, 0x0000, .sync⟩
  | .vsmergef => ⟨0xEF, none, .mtf, 0x0000, .vsQ⟩
  | .vsmerged => ⟨0xEF, none, .mtf, 0x0000, .vsQ⟩
  | .vsmergeg => ⟨0xEF, none, .mtf, 0x0000, .vsQ⟩

/-- The bits a digit sets (R112, R113). -/
def DigitUse.bits : DigitUse → Option Bool → Word
  | .mask, Option.none => 0
  | .mask, some d => if d then 0xC000 else 0x8000
  | .mtf, d => if d.getD true then 0x4000 else 0
  | .none, _ => 0

/-- The first instruction-stream operand: the name's function, bit 13 for a letter, the digit's bits, and each vector register
in its field (R111 to R117). -/
def AsmSpec.word (a : AsmSpec) (q : Quals) (operands : List AsmOperand) : Word :=
  a.func + (if q.letter.isSome then 0x2000 else 0) + a.digit.bits q.digit +
    (List.zipWith (fun (n : VReg) k => BitVec.ofNat 16 (n.val * 2 ^ k)) (operands.filterMap AsmOperand.register)
      a.layout.fields).foldr (· + ·) 0

end Sys2Proof

namespace Sys2Proof.Machine

/-! ### The instructions by family -/

/-- The vector-vector floating arithmetic instruction of an operation and a type (R170). -/
def floatVV : FOp → FType → Cntrl → Instr
  | .add, .f, c => .vvaddf c
  | .add, .d, c => .vvaddd c
  | .add, .g, c => .vvaddg c
  | .sub, .f, c => .vvsubf c
  | .sub, .d, c => .vvsubd c
  | .sub, .g, c => .vvsubg c
  | .mul, .f, c => .vvmulf c
  | .mul, .d, c => .vvmuld c
  | .mul, .g, c => .vvmulg c
  | .div, .f, c => .vvdivf c
  | .div, .d, c => .vvdivd c
  | .div, .g, c => .vvdivg c

/-- The vector-scalar floating arithmetic instruction of an operation and a type (R170). -/
def floatVS : FOp → (t : FType) → Cntrl → BitVec t.dtype.width → Instr
  | .add, .f, c, x => .vsaddf c x
  | .add, .d, c, x => .vsaddd c x
  | .add, .g, c, x => .vsaddg c x
  | .sub, .f, c, x => .vssubf c x
  | .sub, .d, c, x => .vssubd c x
  | .sub, .g, c, x => .vssubg c x
  | .mul, .f, c, x => .vsmulf c x
  | .mul, .d, c, x => .vsmuld c x
  | .mul, .g, c, x => .vsmulg c x
  | .div, .f, c, x => .vsdivf c x
  | .div, .d, c, x => .vsdivd c x
  | .div, .g, c, x => .vsdivg c x

/-- The vector-vector integer arithmetic instruction of an operation (R220). -/
def intVV : IOp → Cntrl → Instr
  | .add, c => .vvaddl c
  | .sub, c => .vvsubl c
  | .mul, c => .vvmull c

/-- The vector-scalar integer arithmetic instruction of an operation (R220). -/
def intVS : IOp → Cntrl → Longword → Instr
  | .add, c, x => .vsaddl c x
  | .sub, c, x => .vssubl c x
  | .mul, c, x => .vsmull c x

/-- The vector-vector compare opcode of a type (R270, R290). -/
def compareVV : DType → Cntrl → Instr
  | .l, c => .vvcmpl c
  | .f, c => .vvcmpf c
  | .d, c => .vvcmpd c
  | .g, c => .vvcmpg c

/-- The vector-scalar compare opcode of a type (R270, R290). -/
def compareVS : (ty : DType) → Cntrl → BitVec ty.width → Instr
  | .l, c, x => .vscmpl c x
  | .f, c, x => .vscmpf c x
  | .d, c, x => .vscmpd c x
  | .g, c, x => .vscmpg c x

/-- The mnemonic `VV<rel><t>` (R117, R279, R294). -/
def relationVV : DType → Rel → MaskQual → VReg → VReg → Instr
  | .l, .gtr, q, va, vb => .vvgtrl q va vb
  | .l, .eql, q, va, vb => .vveqll q va vb
  | .l, .lss, q, va, vb => .vvlssl q va vb
  | .l, .leq, q, va, vb => .vvleql q va vb
  | .l, .neq, q, va, vb => .vvneql q va vb
  | .l, .geq, q, va, vb => .vvgeql q va vb
  | .f, .gtr, q, va, vb => .vvgtrf q va vb
  | .f, .eql, q, va, vb => .vveqlf q va vb
  | .f, .lss, q, va, vb => .vvlssf q va vb
  | .f, .leq, q, va, vb => .vvleqf q va vb
  | .f, .neq, q, va, vb => .vvneqf q va vb
  | .f, .geq, q, va, vb => .vvgeqf q va vb
  | .d, .gtr, q, va, vb => .vvgtrd q va vb
  | .d, .eql, q, va, vb => .vveqld q va vb
  | .d, .lss, q, va, vb => .vvlssd q va vb
  | .d, .leq, q, va, vb => .vvleqd q va vb
  | .d, .neq, q, va, vb => .vvneqd q va vb
  | .d, .geq, q, va, vb => .vvgeqd q va vb
  | .g, .gtr, q, va, vb => .vvgtrg q va vb
  | .g, .eql, q, va, vb => .vveqlg q va vb
  | .g, .lss, q, va, vb => .vvlssg q va vb
  | .g, .leq, q, va, vb => .vvleqg q va vb
  | .g, .neq, q, va, vb => .vvneqg q va vb
  | .g, .geq, q, va, vb => .vvgeqg q va vb

/-- The mnemonic `VS<rel><t>` (R117, R279, R294). -/
def relationVS : (ty : DType) → Rel → MaskQual → BitVec ty.width → VReg → Instr
  | .l, .gtr, q, x, vb => .vsgtrl q x vb
  | .l, .eql, q, x, vb => .vseqll q x vb
  | .l, .lss, q, x, vb => .vslssl q x vb
  | .l, .leq, q, x, vb => .vsleql q x vb
  | .l, .neq, q, x, vb => .vsneql q x vb
  | .l, .geq, q, x, vb => .vsgeql q x vb
  | .f, .gtr, q, x, vb => .vsgtrf q x vb
  | .f, .eql, q, x, vb => .vseqlf q x vb
  | .f, .lss, q, x, vb => .vslssf q x vb
  | .f, .leq, q, x, vb => .vsleqf q x vb
  | .f, .neq, q, x, vb => .vsneqf q x vb
  | .f, .geq, q, x, vb => .vsgeqf q x vb
  | .d, .gtr, q, x, vb => .vsgtrd q x vb
  | .d, .eql, q, x, vb => .vseqld q x vb
  | .d, .lss, q, x, vb => .vslssd q x vb
  | .d, .leq, q, x, vb => .vsleqd q x vb
  | .d, .neq, q, x, vb => .vsneqd q x vb
  | .d, .geq, q, x, vb => .vsgeqd q x vb
  | .g, .gtr, q, x, vb => .vsgtrg q x vb
  | .g, .eql, q, x, vb => .vseqlg q x vb
  | .g, .lss, q, x, vb => .vslssg q x vb
  | .g, .leq, q, x, vb => .vsleqg q x vb
  | .g, .neq, q, x, vb => .vsneqg q x vb
  | .g, .geq, q, x, vb => .vsgeqg q x vb

/-- The mnemonic of a conversion (R117). -/
def conversion : CvtFunc → Bool → MaskQual → VReg → VReg → Instr
  | .cvtlf, u, q, vb, vc => .vvcvtlf u q vb vc
  | .cvtld, u, q, vb, vc => .vvcvtld u q vb vc
  | .cvtlg, u, q, vb, vc => .vvcvtlg u q vb vc
  | .cvtfl, u, q, vb, vc => .vvcvtfl u q vb vc
  | .cvtrfl, u, q, vb, vc => .vvcvtrfl u q vb vc
  | .cvtfd, u, q, vb, vc => .vvcvtfd u q vb vc
  | .cvtfg, u, q, vb, vc => .vvcvtfg u q vb vc
  | .cvtdl, u, q, vb, vc => .vvcvtdl u q vb vc
  | .cvtdf, u, q, vb, vc => .vvcvtdf u q vb vc
  | .cvtrdl, u, q, vb, vc => .vvcvtrdl u q vb vc
  | .cvtgl, u, q, vb, vc => .vvcvtgl u q vb vc
  | .cvtgf, u, q, vb, vc => .vvcvtgf u q vb vc
  | .cvtrgl, u, q, vb, vc => .vvcvtrgl u q vb vc

/-! ### The values of data -/

/-- How two data of a type stand to each other: as two's-complement integers (R293), or as floating values (R281). -/
def orderOf : (ty : DType) → BitVec ty.width → BitVec ty.width → FPOrder
  | .l, x, y => intOrder x.toInt y.toInt
  | .f, x, y => vaxFP.cmp .f x y
  | .d, x, y => vaxFP.cmp .d x y
  | .g, x, y => vaxFP.cmp .g x y

/-- A reserved operand by its bits: sign 1 and exponent field 0 (R42, R43, R44). -/
def ReservedBits : (t : FType) → BitVec t.dtype.width → Prop
  | .f, x => x.getLsbD 15 = true ∧ x.extractLsb' 7 8 = 0
  | .d, x => x.getLsbD 15 = true ∧ x.extractLsb' 7 8 = 0
  | .g, x => x.getLsbD 15 = true ∧ x.extractLsb' 4 11 = 0

/-- A reserved operand of a datum type: a longword is never one. -/
def ReservedDatum : (ty : DType) → BitVec ty.width → Prop
  | .l, _ => False
  | .f, x => ReservedBits .f x
  | .d, x => ReservedBits .d x
  | .g, x => ReservedBits .g x

/-- A zero by its bits: sign 0 and exponent field 0, whatever the fraction (R42, R43, R44). -/
def ZeroBits : (t : FType) → BitVec t.dtype.width → Prop
  | .f, x => x.getLsbD 15 = false ∧ x.extractLsb' 7 8 = 0
  | .d, x => x.getLsbD 15 = false ∧ x.extractLsb' 7 8 = 0
  | .g, x => x.getLsbD 15 = false ∧ x.extractLsb' 4 11 = 0

/-- The number a floating datum stands for; 0 for a reserved operand, which stands for none (R42, R43, R44). -/
def valueOf (t : FType) (x : BitVec t.dtype.width) : ℚ :=
  match fValue t x with
  | .reserved => 0
  | .num m k => m * (2 : ℚ) ^ k

/-- The exact real result of an operation (R45). -/
def exactOp (op : FOp) (a b : ℚ) : ℚ :=
  match op with
  | .add => a + b
  | .sub => a - b
  | .mul => a * b
  | .div => a / b

/-- The least magnitude that rounds past the largest datum: halfway between that datum, `2^(max - excess) * (1 - 2^-p)` with `p`
bits of precision, and the next power of two (R42 to R45). -/
def overflowBound (t : FType) : ℚ :=
  2 ^ ((fMaxExp t : ℤ) - fBias t) * (1 - 2 ^ (-((fFracBits t : ℤ) + 2)))

/-- The least magnitude that rounds to the smallest non-zero datum, `2^-excess`, rather than to a number below it (R42 to
R45). -/
def underflowBound (t : FType) : ℚ := 2 ^ (-(fBias t : ℤ)) * (1 - 2 ^ (-((fFracBits t : ℤ) + 2)))

/-- `v` is a datum nearest to the real number `r`, of two such the one of larger magnitude, and all zero bits for 0 (R45). -/
def Nearest (t : FType) (r : ℚ) (v : BitVec t.dtype.width) : Prop :=
  ¬ ReservedBits t v ∧ (r = 0 → v = 0) ∧
    ∀ w : BitVec t.dtype.width, ¬ ReservedBits t w →
      |r - valueOf t v| < |r - valueOf t w| ∨ (|r - valueOf t v| = |r - valueOf t w| ∧ |valueOf t w| ≤ |valueOf t v|)

/-- The answer that the real number `r` gives: overflow at and above the upper bound, underflow below the lower one unless `r`
is 0, and otherwise the nearest datum (R45). -/
def RoundedTo (t : FType) (r : ℚ) : FPResult t.dtype.width → Prop
  | .value v => (r = 0 ∨ underflowBound t ≤ |r|) ∧ |r| < overflowBound t ∧ Nearest t r v
  | .overflow => overflowBound t ≤ |r|
  | .underflow => r ≠ 0 ∧ |r| < underflowBound t
  | .reservedOperand => False
  | .divideByZero => False

/-- The same for a conversion's answer (R46). -/
def CvtRoundedTo (t : FType) (r : ℚ) : CvtResult t.dtype.width → Prop
  | .value v => RoundedTo t r (.value v)
  | .overflow => RoundedTo t r .overflow
  | .underflow => RoundedTo t r .underflow
  | .reservedOperand => False
  | .integerOverflow _ => False

/-- The integer part of a number toward zero, or the nearest integer with a tie away from zero (R46). -/
def toInteger (rounded : Bool) (a : ℚ) : ℤ :=
  let n := ⌊|a| + if rounded then 1 / 2 else 0⌋
  if a < 0 then -n else n

/-- A number outside -2^31 to 2^31-1 does not fit a longword (R46). -/
def longwordResult (n : ℤ) : CvtResult 32 :=
  if -2 ^ 31 ≤ n ∧ n ≤ 2 ^ 31 - 1 then .value (BitVec.ofInt 32 n) else .integerOverflow (BitVec.ofInt 32 n)

/-! ### Answers of FP -/

/-- An answer of `FP.op` that stops no element: a value, or underflow when it is not enabled (R171). -/
def StoresFloat (exc : Bool) {w : Nat} : FPResult w → Prop
  | .value _ => True
  | .underflow => exc = false
  | _ => False

/-- The datum stored for an answer of `FP.op` that stops no element: the value, or zero for underflow (R171, R406). -/
def storedFloat (fp : FP) (t : FType) : FPResult t.dtype.width → BitVec t.dtype.width
  | .value v => v
  | _ => fp.zero t.dtype

/-- The exception of an answer of `FP.op` (R405 to R408). -/
def floatExc {w : Nat} : FPResult w → Option Exc
  | .value _ => none
  | .overflow => some .floatingOverflow
  | .underflow => some .floatingUnderflow
  | .reservedOperand => some .floatingReservedOperand
  | .divideByZero => some .floatingDivideByZero

/-- An answer of `FP.cvt` that stops no element (R351). -/
def StoresCvt (exc : Bool) {w : Nat} : CvtResult w → Prop
  | .value _ => True
  | .underflow => exc = false
  | .integerOverflow _ => exc = false
  | _ => False

/-- The datum stored for an answer of `FP.cvt` that stops no element (R351). -/
def storedCvt (fp : FP) (ty : DType) : CvtResult ty.width → BitVec ty.width
  | .value v => v
  | .integerOverflow v => v
  | _ => fp.zero ty

/-- The exception of an answer of `FP.cvt` (R351). -/
def cvtExc {w : Nat} : CvtResult w → Option Exc
  | .value _ => none
  | .overflow => some .floatingOverflow
  | .underflow => some .floatingUnderflow
  | .reservedOperand => some .floatingReservedOperand
  | .integerOverflow _ => some .integerOverflow

/-! ### Elements -/

/-- Element `i` is processed: below VLR and passing the mask test (R26, R30). -/
def Processed (c : Cntrl) (s : State) (i : ElemIx) : Prop :=
  i.val < s.vlr.toNat ∧ (c.moe = false ∨ s.maskBit i = c.mtf)

/-- Element `k` is the lowest-numbered processed element with a property (R414). -/
def FirstProcessed (c : Cntrl) (s : State) (p : ElemIx → Prop) (k : ElemIx) : Prop :=
  Processed c s k ∧ p k ∧ ∀ i, i < k → Processed c s i → ¬ p i

/-- Element `i` of register `vc` holds a 32-bit result in its low half and a value drawn by this instruction, of which
nothing is known, in its high half (R24). -/
def LowResult (s t : State) (vc : VReg) (i : ElemIx) (x : Longword) : Prop :=
  (t.elem vc i).lo = x ∧ ∃ k, s.draws ≤ k ∧ k < t.draws ∧ (t.elem vc i).hi = Config.draw32 k

/-- Element `i` of register `vc` holds a datum of a type: in bits 31:0 for L and F, in bits 63:0 for D and G (R48). -/
def DatumResult (s t : State) (vc : VReg) (i : ElemIx) : (ty : DType) → BitVec ty.width → Prop
  | .l, x => LowResult s t vc i x
  | .f, x => LowResult s t vc i x
  | .d, x => t.elem vc i = .ofQ x
  | .g, x => t.elem vc i = .ofQ x

/-- The elements that IOTA counts: those below VLR whose mask bit equals MTF, rising (R130). -/
def matching (c : Cntrl) (s : State) : List ElemIx := s.elements.filter (selected c s)

/-! ### What is written and what is not -/

/-- What an instruction may write: a vector register, VLR, VCR, VMR, memory, a scalar register, and the model's draw
counter. -/
structure Writes where
  vreg : Option VReg := none
  vlr : Bool := false
  vcr : Bool := false
  vmr : Bool := false
  mem : Bool := false
  scalar : Option GReg := none
  draws : Bool := false
  deriving DecidableEq, Repr

/-- From `s` to `t` everything outside `w` is unchanged: registers, mask, every byte of memory, scalar registers, the pc, the
program text and the run's parameters. -/
structure Unchanged (w : Writes) (s t : State) : Prop where
  vreg : ∀ n i, w.vreg ≠ some n → t.elem n i = s.elem n i
  vlr : w.vlr = false → t.vlr = s.vlr
  vcr : w.vcr = false → t.vcr = s.vcr
  vmr : w.vmr = false → t.vmr = s.vmr
  mem : w.mem = false → ∀ a, t.byte a = s.byte a
  scalar : ∀ n : Fin 15, w.scalar ≠ some n.castSucc → t.reg n = s.reg n
  draws : w.draws = false → t.draws = s.draws
  pc : t.pc = s.pc
  text : t.text = s.text
  textBase : t.textBase = s.textBase
  access : t.access = s.access
  devices : t.devices = s.devices

/-- What an instruction may write (R25 to R28, R142, R150, R52). -/
def writesOf (i : Instr) : Writes :=
  match i.lower with
  | .mfvp n (.reg r) => { scalar := some r, draws := n == regnumSYNC || n == regnumMSYNC }
  | .mfvp n (.mem _) => { mem := true, draws := n == regnumSYNC || n == regnumMSYNC }
  | .mtvp n _ => { vcr := n == regnumVCR, vlr := n == regnumVLR, vmr := n == regnumVMRLO || n == regnumVMRHI }
  | .vsync _ => {}
  | j =>
    match j.kind with
    | .floatCompare _ => { vmr := true }
    | .intCompare _ => { vmr := true }
    | .iota => { vreg := j.cntrl.map Cntrl.vc, vcr := true, draws := true }
    | .store => { mem := true }
    | .scatter => { mem := true }
    | _ => { vreg := j.cntrl.map Cntrl.vc, draws := true }

/-- Where the bytes of an `n`-byte datum at `a` are (R51). -/
def Covers (a : Address) (n : Nat) (b : Address) : Prop := ∃ k, k < n ∧ b = a + BitVec.ofNat 32 k

/-! ### Results -/

/-- From `s` to `t` the processed elements of register `c.vc` hold data of a type, every other element of it is unchanged,
and so is everything else (R25). -/
def Computed (c : Cntrl) (ty : DType) (x : ElemIx → BitVec ty.width) (s t : State) : Prop :=
  Unchanged { vreg := some c.vc, draws := true } s t ∧
    ∀ i, (Processed c s i → DatumResult s t c.vc i ty (x i)) ∧
      (¬ Processed c s i → t.elem c.vc i = s.elem c.vc i)

/-- From `s` to `t` the mask bits of the processed elements hold a relation's outcome, every other mask bit is unchanged, and
so is everything else (R272, R293). -/
def Compared (c : Cntrl) (ty : DType) (rel : Rel) (x y : ElemIx → BitVec ty.width) (s t : State) : Prop :=
  Unchanged { vmr := true } s t ∧
    ∀ i, (Processed c s i → t.maskBit i = relHolds rel (orderOf ty (x i) (y i))) ∧
      (¬ Processed c s i → t.maskBit i = s.maskBit i)

/-! ### Exceptions -/

/-- The table of R402: which instruction can raise which exception, the enable of R404 included. -/
def mayRaise (i : Instr) (e : Exc) : Bool :=
  let exc := match i.cntrl with
    | some c => c.exc
    | none => false
  match i.kind, e with
  | .floatArith _ _, .floatingOverflow => true
  | .floatArith _ _, .floatingUnderflow => exc
  | .floatArith _ _, .floatingReservedOperand => true
  | .floatArith op _, .floatingDivideByZero => op == .div
  | .intArith _, .integerOverflow => exc
  | .floatCompare _, .floatingReservedOperand => true
  | .convert, .floatingOverflow => true
  | .convert, .floatingUnderflow => exc
  | .convert, .floatingReservedOperand => true
  | .convert, .integerOverflow => exc
  | .load, .accessControlViolation _ => true
  | .load, .translationNotValid _ => true
  | .load, .vectorAlignment _ => true
  | .gather, .accessControlViolation _ => true
  | .gather, .translationNotValid _ => true
  | .gather, .vectorAlignment _ => true
  | .store, .accessControlViolation _ => true
  | .store, .translationNotValid _ => true
  | .store, .vectorAlignment _ => true
  | .store, .modify _ => true
  | .scatter, .accessControlViolation _ => true
  | .scatter, .translationNotValid _ => true
  | .scatter, .vectorAlignment _ => true
  | .scatter, .modify _ => true
  | _, _ => false

/-- An element access that a load makes: aligned, answered ok, and outside device space (R54, R58, R60, R309). -/
def Loadable (w : MemWidth) (mi : Bool) (s : State) (a : Address) : Prop :=
  a.toNat % w.bytes = 0 ∧ accessCheck s a w.bytes (.read mi) = .ok ∧ inDeviceSpace s a w.bytes = false

/-- An element access that a store makes: as a load's, and outside the program text (R54, R58, R60, R64, R309). -/
def Storable (w : MemWidth) (s : State) (a : Address) : Prop :=
  a.toNat % w.bytes = 0 ∧ accessCheck s a w.bytes .write = .ok ∧ inDeviceSpace s a w.bytes = false ∧
    overlapsText s a w.bytes = false

/-- The bits of a loaded element: 32 for a longword, 64 for a quadword (R301 to R304). -/
def Loaded (w : MemWidth) (s t : State) (vc : VReg) (i : ElemIx) (a : Address) : Prop :=
  match w with
  | .long => LowResult s t vc i (s.readL a)
  | .quad => t.elem vc i = s.readQ a

/-- Byte `k` of what a store takes from an element: of bits 31:0 for a longword, of all 64 for a quadword (R51, R52). -/
def storedByte (w : MemWidth) (e : Element) (k : Nat) : Byte :=
  match w with
  | .long => byteOf e.lo k
  | .quad => byteOf e.q k

/-- The final memory of a store: every byte that a processed element covers holds what the highest-numbered such element
stored there, and every other byte is unchanged (R52, R57). -/
def Stored (w : MemWidth) (c : Cntrl) (addr : ElemIx → Address) (s t : State) : Prop :=
  (∀ b, (∀ i, Processed c s i → ¬ Covers (addr i) w.bytes b) → t.byte b = s.byte b) ∧
    ∀ i k, Processed c s i → k < w.bytes →
      (∀ j, i < j → Processed c s j → ¬ Covers (addr j) w.bytes (addr i + BitVec.ofNat 32 k)) →
      t.byte (addr i + BitVec.ofNat 32 k) = storedByte w (s.elem c.vc i) k

/-- Where an MFVP result can be delivered: a scalar register, or a longword of memory the access check allows (log 38). -/
def Deliverable (s : State) : Dest → Prop
  | .reg _ => True
  | .mem a => scalarAccess s a 4 .write = .ok ∧ overlapsText s a 4 = false

/-- The result `x` is delivered and nothing else changes, but for the draw counter when `drawn` (R142). Of a result delivered
to R15 nothing remains (R33; log 38). -/
def Delivered (drawn : Bool) (s t : State) (x : Longword) : Dest → Prop
  | .reg n => (∀ m : Fin 15, m.castSucc = n → t.reg m = x) ∧ Unchanged { scalar := some n, draws := drawn } s t
  | .mem a =>
    Unchanged { mem := true, draws := drawn } s t ∧ (∀ k, k < 4 → t.byte (a + BitVec.ofNat 32 k) = byteOf x k) ∧
      ∀ b, ¬ Covers a 4 b → t.byte b = s.byte b

/-- The first byte of an operand specifier: mode in bits 7:4, register in bits 3:0 (R83). -/
def modeByte (mode : Nat) (n : GReg) : Byte := BitVec.ofNat 8 (16 * mode + n.val)

/-! ### Encodings that the spec gives no meaning -/

/-- The refusals that an instruction's encoding alone decides (R103). -/
def Refusal.ofEncoding : Refusal → Bool
  | .nonzeroMbzField => true
  | .vcmpCntrl3 => true
  | .reservedCmpFunc => true
  | .reservedCvtFunc => true
  | .reservedRegnum => true
  | .vcrOutOfRange => true
  | .vlrOutOfRange => true
  | _ => false

/-! ### The invariant and safe steps -/

/-- The invariant of the machine: memory is in canonical form and VLR is legal, at most 64 (R26, R38). -/
def State.Inv (s : State) : Prop := Memory.wf s.mem = true ∧ s.vlr.toNat ≤ NELEM

/-- A step that completes: no fault, no refusal (R401). -/
def State.Steps (s t : State) : Prop := step s = .next t

/-- A run that completes: `k` steps, each of which completes (R401). -/
def State.Runs : Nat → State → State → Prop
  | 0, s, t => s = t
  | k + 1, s, t => ∃ u, s.Steps u ∧ State.Runs k u t

end Sys2Proof.Machine
end

