-- ==== Sys2Proof/Certificates/Slice0/Obligations.lean ====
section
/-! DEFINITION. The statements for the provers. -/

open Sys2Proof Sys2Proof.Machine

/-! ### Encoding -/

/-- Decoding the encoding of an instruction, whatever bytes follow, gives the opcode-level instruction it stands for, with
every operand value, and its length. The specifier bytes are general knowledge of the spec (R83), log 1; the modes of all
operands but the control word, regnum among them, are the encoder's choice, log 46. The specifier bytes are general knowledge
of the spec (R83), log 1. -/
def Obligations.DecodeInvertsEncode : Prop :=
  ∀ (i : Instr) (rest : List Byte), decode (encode i ++ rest) = .ok (i.lower, (encode i).length)

/-- Words of 95_test_vectors.md (S1, S6, E2, E10, E17, E22, E23, E27, E28, E57), one or more per format. The specifier bytes
are general knowledge of the spec (R83), log 1; that regnum stands in immediate mode is how those vectors are built, since
the source does not say its mode (R91), log 46. The specifier bytes are general knowledge of the spec (R83), log 1. -/
def Obligations.SpecWordsDecode : Prop :=
  decode [0xFD, 0x80, 0x8F, 0x23, 0x01] = .ok (.vvaddl 0x0123, 5) ∧
  decode [0xFD, 0x34, 0x8F, 0x01, 0x20, 0x9F, 0x00, 0x10, 0x00, 0x00, 0x8F, 0x04, 0x00, 0x00, 0x00] =
    .ok (.vldl 0x2001 0x00001000 4, 15) ∧
  decode [0xFD, 0xAE, 0x8F, 0xED, 0xEF] = .ok (.vvdivd 0xEFED, 5) ∧
  decode [0xFD, 0xC3, 0x8F, 0x25, 0xC0, 0x8F, 0x10, 0x40, 0x00, 0x00, 0x00, 0x00, 0x00, 0x00] =
    .ok (.vscmpg 0xC025 0x4010, 14) ∧
  decode [0xFD, 0xED, 0x8F, 0x05, 0x40, 0x8F, 0x04, 0x00, 0x00, 0x00] = .ok (.iota 0x4005 4, 10) ∧
  decode [0xFD, 0x9F, 0x8F, 0x12, 0x00, 0x9F, 0x00, 0x20, 0x00, 0x00] = .ok (.vscatq 0x0012 0x00002000, 10) ∧
  decode [0xFD, 0x31, 0x8F, 0x01, 0x00, 0x50] = .ok (.mfvp 1 (.reg 0), 6) ∧
  decode [0xFD, 0xA9, 0x8F, 0x02, 0x00, 0x8F, 0x00, 0x00, 0xFF, 0xFF] = .ok (.mtvp 2 0xFFFF0000, 10) ∧
  decode [0xFD, 0xA8, 0x8F, 0x00, 0x00] = .ok (.vsync 0, 5) ∧
  decode [0xFD, 0x32, 0x8F, 0x00, 0x00] = .error .unknownOpcode

/-- A step refuses, as not a vector instruction, every opcode word that is not one of the 63 of R100. That it is refused is
the spec's decision D8 (R102), log 9. -/
def Obligations.UnlistedOpcodesRefused : Prop :=
  ∀ (s : State) (b0 b1 : Byte) (rest : List Byte), s.fetchBytes = b0 :: b1 :: rest →
    (b0 ≠ 0xFD ∨ b1.toNat ∉
      [0x31, 0x34, 0x35, 0x36, 0x37, 0x80, 0x81, 0x82, 0x83, 0x84, 0x85, 0x86, 0x87, 0x88, 0x89, 0x8A, 0x8B, 0x8C, 0x8D,
        0x8E, 0x8F, 0x9C, 0x9D, 0x9E, 0x9F, 0xA0, 0xA1, 0xA2, 0xA3, 0xA4, 0xA5, 0xA6, 0xA7, 0xA8, 0xA9, 0xAA, 0xAB, 0xAC,
        0xAD, 0xAE, 0xAF, 0xC0, 0xC1, 0xC2, 0xC3, 0xC4, 0xC5, 0xC6, 0xC7, 0xC8, 0xC9, 0xCC, 0xCD, 0xE0, 0xE1, 0xE4, 0xE5,
        0xE8, 0xE9, 0xEC, 0xED, 0xEE, 0xEF]) →
    step s = .refused (.undecodable .unknownOpcode)

/-- The control word's fields lie where R85 says: a word built from fields gives each back, and every word whose bit 12 is 0
is built from its own fields. -/
def Obligations.ControlWordFields : Prop :=
  (∀ (b15 b14 b13 : Bool) (va vb vc : VReg),
    let c := Cntrl.make b15 b14 b13 va.field vb.field vc.field
    c.moe = b15 ∧ c.mtf = b14 ∧ c.exc = b13 ∧ c.mi = b13 ∧ c.va = va ∧ c.vb = vb ∧ c.vc = vc ∧
      c.toNat = 32768 * b15.toNat + 16384 * b14.toNat + 8192 * b13.toNat + 256 * va.val + 16 * vb.val + vc.val) ∧
  ∀ c : Cntrl, c.getLsbD 12 = false → c = Cntrl.make c.moe c.mtf c.exc c.va.field c.vb.field c.vc.field

/-- The five assembler examples of the source and the instructions they stand for. The control words are the spec's
derivation (R120). -/
def Obligations.AssemblerExamples : Prop :=
  assemble .vvaddf ⟨none, some true⟩ [.vreg 0, .vreg 1, .vreg 2] = some (.vvaddf 0xC012) ∧
  assemble .vvmuld ⟨none, some false⟩ [.vreg 0, .vreg 1, .vreg 2] = some (.vvmuld 0x8012) ∧
  assemble .vvaddl ⟨some .v, none⟩ [.vreg 0, .vreg 1, .vreg 2] = some (.vvaddl 0x2012) ∧
  assemble .vvsubg ⟨some .u, some false⟩ [.vreg 0, .vreg 1, .vreg 2] = some (.vvsubg 0xA012) ∧
  ∀ base : Address, assemble .vldl ⟨some .m, none⟩ [.addr base, .long 4, .vreg 1] = some (.vldl 0x2001 base 4)

/-- What the assembler's qualifiers do to the control word, for every mnemonic: a letter sets bit 13 and nothing else does; a
digit sets MOE, and MTF to the digit; no digit leaves both 0; on VMERGE and IOTA a digit is MTF alone, which is 1 by default.
-/
def Obligations.QualifiersSetControlWord : Prop :=
  ∀ (m : Mnemonic) (q : Quals) (operands : List AsmOperand) (i : Instr) (c : Cntrl),
    assemble m q operands = some i → i.cntrl = some c →
      (c.getLsbD 13 = q.letter.isSome) ∧
      if i.kind = .iota ∨ i.kind = .merge false ∨ i.kind = .merge true then
        c.moe = false ∧ c.mtf = q.digit.getD true
      else c.moe = q.digit.isSome ∧ c.mtf = q.digit.getD false

/-- The assembler answers an instruction for exactly the qualifiers and operands that R115 and R116 give a mnemonic: no
letter or the mnemonic's own, no digit where it takes none, and operands of its row's sorts in its row's order. The
instruction is the one the tables say: its opcode, its first operand built from the name, the qualifiers and the registers,
and the other operands in order. In every family a letter that has no bit to set is refused. That such a letter is refused is
the spec's decision D22 (R115), log 41; the modes of the operands, regnum among them, are the encoder's choice, log 46. -/
def Obligations.AssemblerRefusesOtherLetters : Prop :=
  ∀ (m : Mnemonic) (q : Quals) (operands : List AsmOperand),
    ((assemble m q operands).isSome = true ↔
      (q.letter = none ∨ q.letter = m.spec.letter) ∧ (m.spec.digit = .none → q.digit = none) ∧
        operands.map AsmOperand.sort = m.spec.layout.sorts) ∧
    ∀ i, assemble m q operands = some i →
      encode i = 0xFD :: m.spec.code :: (immWord (m.spec.word q operands) ++ operands.flatMap AsmOperand.bytes) ∧
      match i.kind with
      | .floatArith _ _ => q.letter = none ∨ q.letter = some .u
      | .convert => q.letter = none ∨ q.letter = some .u
      | .intArith _ => q.letter = none ∨ q.letter = some .v
      | .load => q.letter = none ∨ q.letter = some .m
      | .gather => q.letter = none ∨ q.letter = some .m
      | .control => q.letter = none ∧ q.digit = none
      | _ => q.letter = none

/-! ### Control registers -/

/-- MFVP with register number 0 to 3, and its mnemonics: the destination receives VCR, VLR, or a half of VMR, and nothing
else changes. That a memory destination receives the longword, and must be one the access check allows, is log 38 and 37, as
is that R15 keeps nothing; the 7-bit width of VCR is log 10. -/
def Obligations.MoveFromRegisters : Prop :=
  ∀ (s : State) (dst : Dest), Memory.wf s.mem = true → Deliverable s dst →
    (∃ t, exec (.mfvp 0 dst) s = .next t ∧ exec (.mfvcr dst) s = .next t ∧
      Delivered false s t (BitVec.ofNat 32 s.vcr.toNat) dst) ∧
    (∃ t, exec (.mfvp 1 dst) s = .next t ∧ exec (.mfvlr dst) s = .next t ∧
      Delivered false s t (BitVec.ofNat 32 s.vlr.toNat) dst) ∧
    (∃ t, exec (.mfvp 2 dst) s = .next t ∧ exec (.mfvmrlo dst) s = .next t ∧
      Delivered false s t (s.vmr.extractLsb' 0 32) dst) ∧
    ∃ t, exec (.mfvp 3 dst) s = .next t ∧ exec (.mfvmrhi dst) s = .next t ∧
      Delivered false s t (s.vmr.extractLsb' 32 32) dst

/-- SYNCH and MSYNCH complete, deliver the next drawn value, whatever it is, and change nothing else. That they wait for
nothing and that the destination is a drawn value are the spec's decisions D13 and D15, log 14 and 16. That a memory
destination receives the longword, and must be one the access check allows, is log 38 and 37. -/
def Obligations.SynchDeliversDrawnValue : Prop :=
  ∀ (s : State) (dst : Dest), Memory.wf s.mem = true → Deliverable s dst →
    ∃ t, exec (.mfvp 4 dst) s = .next t ∧ exec (.synch dst) s = .next t ∧ exec (.mfvp 5 dst) s = .next t ∧
      exec (.msynch dst) s = .next t ∧ Delivered true s t (Config.draw32 s.draws) dst ∧ t.draws = s.draws + 1

/-- An MFVP result whose memory destination the access check does not allow: the byte level's own fault. The model's choice,
log 37 and 38. -/
def Obligations.MoveFromDeniedDestination : Prop :=
  ∀ (s : State) (n : Word) (a : Address), n.toNat ≤ 5 → inDeviceSpace s a 4 = false →
    accessCheck s a 4 .write ≠ .ok →
    exec (.mfvp n (.mem a)) s = .fault (.scalarOperand a (accessCheck s a 4 .write))

/-- MTVP with register number 2 and 3, and MTVMRLO and MTVMRHI: one half of VMR receives the operand, bit by bit; the other
half and everything else are unchanged. -/
def Obligations.MoveToMaskHalves : Prop :=
  ∀ (s : State) (src : Longword),
    (∃ t, exec (.mtvp 2 src) s = .next t ∧ exec (.mtvmrlo src) s = .next t ∧ Unchanged { vmr := true } s t ∧
      t.vmr.extractLsb' 0 32 = src ∧ t.vmr.extractLsb' 32 32 = s.vmr.extractLsb' 32 32 ∧
      ∀ i : ElemIx, t.maskBit i = if i.val < 32 then src.getLsbD i.val else s.maskBit i) ∧
    ∃ t, exec (.mtvp 3 src) s = .next t ∧ exec (.mtvmrhi src) s = .next t ∧ Unchanged { vmr := true } s t ∧
      t.vmr.extractLsb' 32 32 = src ∧ t.vmr.extractLsb' 0 32 = s.vmr.extractLsb' 0 32 ∧
      ∀ i : ElemIx, t.maskBit i = if i.val < 32 then s.maskBit i else src.getLsbD (i.val - 32)

/-- MTVP with register number 0 and 1, and MTVCR and MTVLR: the register receives the operand, a VCR value above 127 and a
VLR value above 64 are refused, and nothing else changes. The ranges, 127 and 64, and the refusal above them are the spec's
decision D9, log 10. -/
def Obligations.MoveToCountAndLength : Prop :=
  ∀ (s : State) (src : Longword),
    (if src.toNat ≤ 127 then
      ∃ t, exec (.mtvp 0 src) s = .next t ∧ exec (.mtvcr src) s = .next t ∧ t.vcr.toNat = src.toNat ∧
        Unchanged { vcr := true } s t
    else exec (.mtvp 0 src) s = .refused .vcrOutOfRange ∧ exec (.mtvcr src) s = .refused .vcrOutOfRange) ∧
    if src.toNat ≤ 64 then
      ∃ t, exec (.mtvp 1 src) s = .next t ∧ exec (.mtvlr src) s = .next t ∧ t.vlr.toNat = src.toNat ∧
        Unchanged { vlr := true } s t
    else exec (.mtvp 1 src) s = .refused .vlrOutOfRange ∧ exec (.mtvlr src) s = .refused .vlrOutOfRange

/-- Reserved register numbers are refused: above 5 in MFVP, above 3 in MTVP, above 0 in VSYNC. The source says UNPREDICTABLE;
that the model refuses is the spec's decision D8, log 9. -/
def Obligations.ReservedRegnumRefused : Prop :=
  ∀ (s : State) (n : Word),
    (5 < n.toNat → ∀ dst, exec (.mfvp n dst) s = .refused .reservedRegnum) ∧
    (3 < n.toNat → ∀ src, exec (.mtvp n src) s = .refused .reservedRegnum) ∧
    (0 < n.toNat → exec (.vsync n) s = .refused .reservedRegnum)

/-- VSYNC with register number 0, and VSYNCH, complete and change no state. That it changes no state is the spec's decision
D13, log 14. -/
def Obligations.VsyncChangesNothing : Prop :=
  ∀ s : State, exec (.vsync 0) s = .next s ∧ exec .vsynch s = .next s

/-! ### IOTA -/

/-- IOTA writes `i * stride`, for exactly the element numbers `i` below VLR whose mask bit equals MTF, into consecutive
elements of Vc from element 0 on, and their number in VCR; everything else is unchanged. The drawn upper half of each result
is D6 (R24), log 7. -/
def Obligations.IotaCompresses : Prop :=
  ∀ (s : State) (c : Cntrl) (stride : Longword), Cntrl.zeroUnder mbzIota c = true →
    ∃ t, exec (.iota c stride) s = .next t ∧ Unchanged { vreg := some c.vc, vcr := true, draws := true } s t ∧
      t.vcr.toNat = (matching c s).length ∧
      (∀ k i, (matching c s)[k]? = some i →
        LowResult s t c.vc (Fin.ofNat NELEM k) (BitVec.ofNat 32 (i.val * stride.toNat))) ∧
      ∀ m : ElemIx, (matching c s).length ≤ m.val → t.elem c.vc m = s.elem c.vc m

/-! ### Integer arithmetic -/

/-- VVADDL, VVSUBL, VVMULL: when no processed element overflows or EXC is 0, the processed elements of Vc hold the low 32
bits of the exact sum, difference or product of Va and Vb, and everything else is unchanged. The drawn upper half is D6 (log
7); that a disabled overflow stores the low 32 bits is D17 (log 19). -/
def Obligations.IntegerVectorVector : Prop :=
  ∀ (s : State) (op : IOp) (c : Cntrl), Cntrl.zeroUnder mbzVV c = true →
    (c.exc = true → ∀ i, Processed c s i → op.overflows (s.elem c.va i).lo (s.elem c.vb i).lo = false) →
    ∃ t, exec (intVV op c) s = .next t ∧
      Computed c .l (fun i => BitVec.ofInt 32 (op.exact (s.elem c.va i).lo (s.elem c.vb i).lo)) s t

/-- VSADDL, VSSUBL, VSMULL: the same with the scalar as the left operand. The drawn upper half is D6 (log 7); that a disabled
overflow stores the low 32 bits is D17 (log 19). -/
def Obligations.IntegerVectorScalar : Prop :=
  ∀ (s : State) (op : IOp) (c : Cntrl) (x : Longword), Cntrl.zeroUnder mbzVS c = true →
    (c.exc = true → ∀ i, Processed c s i → op.overflows x (s.elem c.vb i).lo = false) →
    ∃ t, exec (intVS op c x) s = .next t ∧
      Computed c .l (fun i => BitVec.ofInt 32 (op.exact x (s.elem c.vb i).lo)) s t

/-- With EXC = 1 the six integer arithmetic instructions raise integer overflow at the lowest-numbered processed element that
overflows. The signed kind of overflow is D17 (log 19), the order of elements D14 and D24 (log 15, 28). -/
def Obligations.IntegerOverflowRaised : Prop :=
  ∀ (s : State) (op : IOp) (c : Cntrl) (k : ElemIx), c.exc = true →
    (Cntrl.zeroUnder mbzVV c = true →
      FirstProcessed c s (fun i => op.overflows (s.elem c.va i).lo (s.elem c.vb i).lo = true) k →
      ∃ left, exec (intVV op c) s = .fault (.raised .integerOverflow k left)) ∧
    ∀ x, Cntrl.zeroUnder mbzVS c = true →
      FirstProcessed c s (fun i => op.overflows x (s.elem c.vb i).lo = true) k →
      ∃ left, exec (intVS op c x) s = .fault (.raised .integerOverflow k left)

/-- The stored result is the low 32 bits of the exact one; overflow is exactly that the stored result, read as signed, is not
the exact one; and for a product, exactly that bits 63:31 of the 64-bit product are not all equal. That overflow is signed is
the spec's decision D17, log 19. -/
def Obligations.IntegerOverflowIsSigned : Prop :=
  ∀ (x y : Longword),
    (∀ op : IOp, op.result x y = BitVec.ofInt 32 (op.exact x y) ∧
      (op.overflows x y = true ↔ (op.result x y).toInt ≠ op.exact x y)) ∧
    (IOp.overflows .mul x y = false ↔
      ∀ n, 31 ≤ n → n < 64 → (BitVec.ofInt 64 (x.toInt * y.toInt)).getLsbD n =
        (BitVec.ofInt 64 (x.toInt * y.toInt)).getLsbD 63)

/-! ### Floating arithmetic -/

/-- The twelve vector-vector floating instructions: when every processed element's answer is a value, or underflow with EXC =
0, the processed elements of Vc hold it, or zero, and everything else is unchanged. That a disabled underflow stores zero is
D12 (log 13), the instance D16 (log 17), the drawn upper half D6 (log 7). -/
def Obligations.FloatVectorVector : Prop :=
  ∀ (s : State) (op : FOp) (ty : FType) (c : Cntrl), Cntrl.zeroUnder mbzVV c = true →
    let answer := fun i => vaxFP.op op ty (elemDatum (s.elem c.va i) ty.dtype) (elemDatum (s.elem c.vb i) ty.dtype)
    (∀ i, Processed c s i → StoresFloat c.exc (answer i)) →
    ∃ t, exec (floatVV op ty c) s = .next t ∧ Computed c ty.dtype (fun i => storedFloat vaxFP ty (answer i)) s t

/-- The twelve vector-scalar floating instructions: the same with the scalar as the left operand. That a disabled underflow
stores zero is D12 (log 13), the instance D16 (log 17), the drawn upper half D6 (log 7). -/
def Obligations.FloatVectorScalar : Prop :=
  ∀ (s : State) (op : FOp) (ty : FType) (c : Cntrl) (x : BitVec ty.dtype.width), Cntrl.zeroUnder mbzVS c = true →
    let answer := fun i => vaxFP.op op ty x (elemDatum (s.elem c.vb i) ty.dtype)
    (∀ i, Processed c s i → StoresFloat c.exc (answer i)) →
    ∃ t, exec (floatVS op ty c x) s = .next t ∧ Computed c ty.dtype (fun i => storedFloat vaxFP ty (answer i)) s t

/-- The 24 floating arithmetic instructions raise, at the lowest-numbered processed element whose answer stores nothing, the
exception of that answer: underflow only with EXC = 1, the others whatever EXC is. The enabling is D12 (log 13), the order of
elements D14 and D24 (log 15, 28). -/
def Obligations.FloatExceptionRaised : Prop :=
  ∀ (s : State) (op : FOp) (ty : FType) (c : Cntrl) (k : ElemIx) (e : Exc),
    (Cntrl.zeroUnder mbzVV c = true →
      let answer := fun i => vaxFP.op op ty (elemDatum (s.elem c.va i) ty.dtype) (elemDatum (s.elem c.vb i) ty.dtype)
      FirstProcessed c s (fun i => ¬ StoresFloat c.exc (answer i)) k → floatExc (answer k) = some e →
      ∃ left, exec (floatVV op ty c) s = .fault (.raised e k left)) ∧
    ∀ x, Cntrl.zeroUnder mbzVS c = true →
      let answer := fun i => vaxFP.op op ty x (elemDatum (s.elem c.vb i) ty.dtype)
      FirstProcessed c s (fun i => ¬ StoresFloat c.exc (answer i)) k → floatExc (answer k) = some e →
      ∃ left, exec (floatVS op ty c x) s = .fault (.raised e k left)

/-- The intended instance answers reserved operand exactly when an operand has sign 1 and exponent field 0, in arithmetic,
comparison and all thirteen conversions, and divide by zero exactly when it divides, neither operand is reserved and the
divisor is a zero. That reserved operand comes first is the model's choice, log 18. The instance is general knowledge of the
spec, D16, log 17. -/
def Obligations.ReservedOperandAndZeroDivisor : Prop :=
  (∀ (op : FOp) (ty : FType) (x y : BitVec ty.dtype.width),
    (vaxFP.op op ty x y = .reservedOperand ↔ ReservedBits ty x ∨ ReservedBits ty y) ∧
    (vaxFP.op op ty x y = .divideByZero ↔
      op = .div ∧ ¬ ReservedBits ty x ∧ ¬ ReservedBits ty y ∧ ZeroBits ty y) ∧
    (vaxFP.cmp ty x y = .reservedOperand ↔ ReservedBits ty x ∨ ReservedBits ty y)) ∧
  ∀ (f : CvtFunc) (x : BitVec f.src.width), vaxFP.cvt f x = .reservedOperand ↔ ReservedDatum f.src x

/-- When floating arithmetic answers what, for operands that are not reserved and a divisor that is not zero: overflow
exactly when the exact real result rounds past the largest datum, underflow exactly when it is not 0 and rounds below the
smallest, and otherwise the datum nearest to it, in a tie the one of larger magnitude. The same for the three conversions to
a floating type that are Rounded, longword to F, D to F and G to F. The instance is general knowledge of the spec, D16, log
17. -/
def Obligations.FloatResultIsNearest : Prop :=
  (∀ (op : FOp) (ty : FType) (x y : BitVec ty.dtype.width), ¬ ReservedBits ty x → ¬ ReservedBits ty y →
    (op = .div → ¬ ZeroBits ty y) →
    RoundedTo ty (exactOp op (valueOf ty x) (valueOf ty y)) (vaxFP.op op ty x y)) ∧
  (∀ x : Longword, CvtRoundedTo .f x.toInt (vaxFP.cvt .cvtlf x)) ∧
  (∀ x : Quadword, ¬ ReservedBits .d x → CvtRoundedTo .f (valueOf .d x) (vaxFP.cvt .cvtdf x)) ∧
  ∀ x : Quadword, ¬ ReservedBits .g x → CvtRoundedTo .f (valueOf .g x) (vaxFP.cvt .cvtgf x)

/-- Floating comparison orders the real values of the operands, all zeros equal. The instance is general knowledge of the
spec, D16 and D27, log 17 and 31. -/
def Obligations.FloatCompareOrdersValues : Prop :=
  ∀ (ty : FType) (x y : BitVec ty.dtype.width), ¬ ReservedBits ty x → ¬ ReservedBits ty y →
    (vaxFP.cmp ty x y = .less ↔ valueOf ty x < valueOf ty y) ∧
    (vaxFP.cmp ty x y = .equal ↔ valueOf ty x = valueOf ty y) ∧
    (vaxFP.cmp ty x y = .greater ↔ valueOf ty y < valueOf ty x)

/-! ### Logical functions and shifts -/

/-- The six logical instructions complete for every state: the low half of each processed element is the function of the
first operand and `Vb[i]`, the high half that of `Vb[i]`, and everything else is unchanged. -/
def Obligations.LogicalFunctions : Prop :=
  ∀ (s : State) (c : Cntrl),
    (Cntrl.zeroUnder mbzVVNoExc c = true →
      (∃ t, exec (.vvbisl c) s = .next t ∧
        Computed c .d (fun i => (s.elem c.vb i).hi ++ ((s.elem c.va i).lo ||| (s.elem c.vb i).lo)) s t) ∧
      (∃ t, exec (.vvxorl c) s = .next t ∧
        Computed c .d (fun i => (s.elem c.vb i).hi ++ ((s.elem c.va i).lo ^^^ (s.elem c.vb i).lo)) s t) ∧
      ∃ t, exec (.vvbicl c) s = .next t ∧
        Computed c .d (fun i => (s.elem c.vb i).hi ++ (~~~(s.elem c.va i).lo &&& (s.elem c.vb i).lo)) s t) ∧
    (Cntrl.zeroUnder mbzVSNoExc c = true → ∀ x : Longword,
      (∃ t, exec (.vsbisl c x) s = .next t ∧
        Computed c .d (fun i => (s.elem c.vb i).hi ++ (x ||| (s.elem c.vb i).lo)) s t) ∧
      (∃ t, exec (.vsxorl c x) s = .next t ∧
        Computed c .d (fun i => (s.elem c.vb i).hi ++ (x ^^^ (s.elem c.vb i).lo)) s t) ∧
      ∃ t, exec (.vsbicl c x) s = .next t ∧
        Computed c .d (fun i => (s.elem c.vb i).hi ++ (~~~x &&& (s.elem c.vb i).lo)) s t)

/-- The four shift instructions complete for every state: right is division of the unsigned value by a power of two, left
multiplication modulo 2^32, the count the five low bits of its operand; everything else is unchanged. The definition of the
shift operators is the spec's decision D26 (log 30), the drawn upper half D6 (log 7). -/
def Obligations.LogicalShifts : Prop :=
  ∀ (s : State) (c : Cntrl),
    (Cntrl.zeroUnder mbzVVNoExc c = true →
      (∃ t, exec (.vvsrll c) s = .next t ∧
        Computed c .l
          (fun i => BitVec.ofNat 32 ((s.elem c.vb i).lo.toNat / 2 ^ ((s.elem c.va i).lo.toNat % 32))) s t) ∧
      ∃ t, exec (.vvslll c) s = .next t ∧
        Computed c .l
          (fun i => BitVec.ofNat 32 ((s.elem c.vb i).lo.toNat * 2 ^ ((s.elem c.va i).lo.toNat % 32))) s t) ∧
    (Cntrl.zeroUnder mbzVSNoExc c = true → ∀ cnt : Longword,
      (∃ t, exec (.vssrll c cnt) s = .next t ∧
        Computed c .l (fun i => BitVec.ofNat 32 ((s.elem c.vb i).lo.toNat / 2 ^ (cnt.toNat % 32))) s t) ∧
      ∃ t, exec (.vsslll c cnt) s = .next t ∧
        Computed c .l (fun i => BitVec.ofNat 32 ((s.elem c.vb i).lo.toNat * 2 ^ (cnt.toNat % 32))) s t)

/-! ### Compares -/

/-- The eight compare opcodes: with a control word the spec gives a meaning, and no reserved operand in a processed element,
the mask bits of the processed elements hold the relation's outcome, and everything else is unchanged. The integer compares
are a reconstruction, D28 (log 32); the reading of SIGNED_RELATION is D27 (log 31). -/
def Obligations.CompareOpcodes : Prop :=
  ∀ (s : State) (ty : DType) (c : Cntrl) (rel : Rel), c.cmpBit3 = false → c.rel = some rel →
    (Cntrl.zeroUnder mbzVVNoExc c = true →
      let x := fun i => elemDatum (s.elem c.va i) ty
      let y := fun i => elemDatum (s.elem c.vb i) ty
      (∀ i, Processed c s i → orderOf ty (x i) (y i) ≠ .reservedOperand) →
      ∃ t, exec (compareVV ty c) s = .next t ∧ Compared c ty rel x y s t) ∧
    ∀ x : BitVec ty.width, Cntrl.zeroUnder mbzVSNoExc c = true →
      let y := fun i => elemDatum (s.elem c.vb i) ty
      (∀ i, Processed c s i → orderOf ty x (y i) ≠ .reservedOperand) →
      ∃ t, exec (compareVS ty c x) s = .next t ∧ Compared c ty rel (fun _ => x) y s t

/-- The 24 mnemonics `VV<rel><t>`: with no reserved operand in a processed element, the mask bits of the processed elements
hold the named relation of Va to Vb, and everything else is unchanged. The integer compares are a reconstruction, D28 (log
32); the reading of SIGNED_RELATION is D27 (log 31). -/
def Obligations.CompareMnemonicsVectorVector : Prop :=
  ∀ (s : State) (ty : DType) (rel : Rel) (q : MaskQual) (va vb : VReg),
    let c := Cntrl.vvCmp q va vb rel
    let x := fun i => elemDatum (s.elem va i) ty
    let y := fun i => elemDatum (s.elem vb i) ty
    (∀ i, Processed c s i → orderOf ty (x i) (y i) ≠ .reservedOperand) →
    c.moe = q.moe ∧ c.mtf = q.mtf ∧
      ∃ t, exec (relationVV ty rel q va vb) s = .next t ∧ Compared c ty rel x y s t

/-- The 24 mnemonics `VS<rel><t>`: the same with the scalar on the left. The integer compares are a reconstruction, D28 (log
32); the reading of SIGNED_RELATION is D27 (log 31). -/
def Obligations.CompareMnemonicsVectorScalar : Prop :=
  ∀ (s : State) (ty : DType) (rel : Rel) (q : MaskQual) (x : BitVec ty.width) (vb : VReg),
    let c := Cntrl.vsCmp q vb rel
    let y := fun i => elemDatum (s.elem vb i) ty
    (∀ i, Processed c s i → orderOf ty x (y i) ≠ .reservedOperand) →
    c.moe = q.moe ∧ c.mtf = q.mtf ∧
      ∃ t, exec (relationVS ty rel q x vb) s = .next t ∧ Compared c ty rel (fun _ => x) y s t

/-- A floating compare raises floating reserved operand at the lowest-numbered processed element that has one, and an integer
compare never has one. The bits that make a reserved operand, sign 1 with exponent field 0, are the intended instance,
general knowledge of the spec, D16 (log 17). The reading of SIGNED_RELATION is D27 (log 31), the order of elements D14 and
D24 (log 15, 28). -/
def Obligations.CompareReservedOperandRaised : Prop :=
  (∀ (s : State) (ty : FType) (c : Cntrl) (rel : Rel) (k : ElemIx), c.cmpBit3 = false → c.rel = some rel →
    (Cntrl.zeroUnder mbzVVNoExc c = true →
      FirstProcessed c s (fun i => ReservedBits ty (elemDatum (s.elem c.va i) ty.dtype) ∨
        ReservedBits ty (elemDatum (s.elem c.vb i) ty.dtype)) k →
      ∃ left, exec (compareVV ty.dtype c) s = .fault (.raised .floatingReservedOperand k left)) ∧
    ∀ x, Cntrl.zeroUnder mbzVSNoExc c = true →
      FirstProcessed c s (fun i => ReservedBits ty x ∨ ReservedBits ty (elemDatum (s.elem c.vb i) ty.dtype)) k →
      ∃ left, exec (compareVS ty.dtype c x) s = .fault (.raised .floatingReservedOperand k left)) ∧
  ∀ x y : Longword, orderOf .l x y ≠ .reservedOperand

/-- A compare with `cntrl<3>` set, or with function code 3 or 7, is refused, in every type and both forms. The source says
UNPREDICTABLE and Reserved; that the model refuses is D7 and D8, log 8 and 9. -/
def Obligations.CompareCodesRefused : Prop :=
  ∀ (s : State) (ty : DType) (c : Cntrl) (x : BitVec ty.width),
    (Cntrl.zeroUnder mbzVVNoExc c = true →
      (c.getLsbD 3 = true → exec (compareVV ty c) s = .refused .vcmpCntrl3) ∧
      (c.getLsbD 3 = false → (c.extractLsb' 0 3 = 3 ∨ c.extractLsb' 0 3 = 7) →
        exec (compareVV ty c) s = .refused .reservedCmpFunc)) ∧
    (Cntrl.zeroUnder mbzVSNoExc c = true →
      (c.getLsbD 3 = true → exec (compareVS ty c x) s = .refused .vcmpCntrl3) ∧
      (c.getLsbD 3 = false → (c.extractLsb' 0 3 = 3 ∨ c.extractLsb' 0 3 = 7) →
        exec (compareVS ty c x) s = .refused .reservedCmpFunc))

/-- The relations: the code of each, and for which orderings each holds. -/
def Obligations.RelationTable : Prop :=
  Rel.ofCode 0 = some .gtr ∧ Rel.ofCode 1 = some .eql ∧ Rel.ofCode 2 = some .lss ∧ Rel.ofCode 3 = none ∧
  Rel.ofCode 4 = some .leq ∧ Rel.ofCode 5 = some .neq ∧ Rel.ofCode 6 = some .geq ∧ Rel.ofCode 7 = none ∧
  (∀ o, relHolds .gtr o = true ↔ o = .greater) ∧ (∀ o, relHolds .eql o = true ↔ o = .equal) ∧
  (∀ o, relHolds .lss o = true ↔ o = .less) ∧ (∀ o, relHolds .leq o = true ↔ o = .less ∨ o = .equal) ∧
  (∀ o, relHolds .neq o = true ↔ o = .less ∨ o = .greater) ∧
  (∀ o, relHolds .geq o = true ↔ o = .greater ∨ o = .equal)

/-! ### Merge -/

/-- VVMERGE, VSMERGE and its spellings complete for every state: each element of Vc below VLR receives, whole, the first
source where its mask bit equals MTF and `Vb[i]` elsewhere; everything else is unchanged. That the three spellings are one
instruction is the spec's decision D29 (R343), log 33. -/
def Obligations.MergeSelects : Prop :=
  ∀ (s : State) (c : Cntrl),
    (Cntrl.zeroUnder mbzVVMerge c = true →
      ∃ t, exec (.vvmerge c) s = .next t ∧ Unchanged { vreg := some c.vc, draws := true } s t ∧
        ∀ i, t.elem c.vc i =
          if i.val < s.vlr.toNat then (if s.maskBit i = c.mtf then s.elem c.va i else s.elem c.vb i)
          else s.elem c.vc i) ∧
    (Cntrl.zeroUnder mbzVSMerge c = true → ∀ x : Quadword,
      ∃ t, exec (.vsmerge c x) s = .next t ∧ Unchanged { vreg := some c.vc, draws := true } s t ∧
        ∀ i, t.elem c.vc i =
          if i.val < s.vlr.toNat then (if s.maskBit i = c.mtf then .ofQ x else s.elem c.vb i)
          else s.elem c.vc i) ∧
    ∀ (mtf : Bool) (x : Quadword) (vb vc : VReg),
      ∃ t, exec (.vsmergef mtf x vb vc) s = .next t ∧ exec (.vsmerged mtf x vb vc) s = .next t ∧
        exec (.vsmergeg mtf x vb vc) s = .next t ∧ Unchanged { vreg := some vc, draws := true } s t ∧
        ∀ i, t.elem vc i =
          if i.val < s.vlr.toNat then (if s.maskBit i = mtf then .ofQ x else s.elem vb i) else s.elem vc i

/-! ### Convert -/

/-- VVCVT: with a function code that is not Reserved, and every processed element's answer a value, or a condition that EXC =
0 leaves unraised, the processed elements of Vc hold the converted datum and everything else is unchanged. The gating of both
conditions by EXC is D30 (log 34), the instance D16 (log 17), the drawn upper half D6 (log 7). -/
def Obligations.ConvertOpcode : Prop :=
  ∀ (s : State) (c : Cntrl) (f : CvtFunc), Cntrl.zeroUnder mbzVV c = true → c.cvtFunc = some f →
    let answer := fun i => vaxFP.cvt f (elemDatum (s.elem c.vb i) f.src)
    (∀ i, Processed c s i → StoresCvt c.exc (answer i)) →
    ∃ t, exec (.vvcvt c) s = .next t ∧ Computed c f.dst (fun i => storedCvt vaxFP f.dst (answer i)) s t

/-- The 13 conversion mnemonics: the same for the named conversion of Vb to Vc. The gating of both conditions by EXC is D30
(log 34), the instance D16 (log 17), the drawn upper half D6 (log 7). -/
def Obligations.ConvertMnemonics : Prop :=
  ∀ (s : State) (f : CvtFunc) (u : Bool) (q : MaskQual) (vb vc : VReg),
    let c := Cntrl.cvt f u q vb vc
    let answer := fun i => vaxFP.cvt f (elemDatum (s.elem vb i) f.src)
    (∀ i, Processed c s i → StoresCvt u (answer i)) →
    c.moe = q.moe ∧ c.mtf = q.mtf ∧ c.vc = vc ∧
      ∃ t, exec (conversion f u q vb vc) s = .next t ∧
        Computed c f.dst (fun i => storedCvt vaxFP f.dst (answer i)) s t

/-- VVCVT raises, at the lowest-numbered processed element whose answer stores nothing, the exception of that answer:
underflow and integer overflow only with EXC = 1. The gating of both conditions by EXC is D30 (log 34), the order of elements
D14 and D24 (log 15, 28). -/
def Obligations.ConvertExceptionRaised : Prop :=
  ∀ (s : State) (c : Cntrl) (f : CvtFunc) (k : ElemIx) (e : Exc),
    Cntrl.zeroUnder mbzVV c = true → c.cvtFunc = some f →
    let answer := fun i => vaxFP.cvt f (elemDatum (s.elem c.vb i) f.src)
    FirstProcessed c s (fun i => ¬ StoresCvt c.exc (answer i)) k → cvtExc (answer k) = some e →
    ∃ left, exec (.vvcvt c) s = .fault (.raised e k left)

/-- VVCVT with function code 0000, 1011 or 1110 is refused. The source says Reserved; that the model refuses is D8, log 9. -/
def Obligations.ReservedConversionRefused : Prop :=
  ∀ (s : State) (c : Cntrl), Cntrl.zeroUnder mbzVV c = true →
    (c.extractLsb' 8 4 = 0#4 ∨ c.extractLsb' 8 4 = 11#4 ∨ c.extractLsb' 8 4 = 14#4) →
    exec (.vvcvt c) s = .refused .reservedCvtFunc

/-- The conversions marked exact keep the value: longword to D and to G, F to D and to G. The formats are the intended
instance, D16, log 17. -/
def Obligations.ExactConversionsKeepValue : Prop :=
  (∀ x : Longword,
    (∃ v, vaxFP.cvt .cvtld x = .value v ∧ valueOf .d v = x.toInt) ∧
    ∃ v, vaxFP.cvt .cvtlg x = .value v ∧ valueOf .g v = x.toInt) ∧
  ∀ x : Longword, ¬ ReservedBits .f x →
    (∃ v, vaxFP.cvt .cvtfd x = .value v ∧ valueOf .d v = valueOf .f x) ∧
    ∃ v, vaxFP.cvt .cvtfg x = .value v ∧ valueOf .g v = valueOf .f x

/-- The six conversions to longword: the value truncated toward zero, or rounded to nearest with a tie away from zero;
integer overflow, with its low 32 bits, when that integer does not fit. The formats and the tie rule are the intended
instance, D16, log 17. -/
def Obligations.ConversionsToLongword : Prop :=
  (∀ x : Longword, ¬ ReservedBits .f x →
    vaxFP.cvt .cvtfl x = longwordResult (toInteger false (valueOf .f x)) ∧
    vaxFP.cvt .cvtrfl x = longwordResult (toInteger true (valueOf .f x))) ∧
  (∀ x : Quadword, ¬ ReservedBits .d x →
    vaxFP.cvt .cvtdl x = longwordResult (toInteger false (valueOf .d x)) ∧
    vaxFP.cvt .cvtrdl x = longwordResult (toInteger true (valueOf .d x))) ∧
  ∀ x : Quadword, ¬ ReservedBits .g x →
    vaxFP.cvt .cvtgl x = longwordResult (toInteger false (valueOf .g x)) ∧
    vaxFP.cvt .cvtrgl x = longwordResult (toInteger true (valueOf .g x))

/-! ### Memory instructions -/

/-- VLDL and VLDQ: when every processed element may be loaded, element `i` of Vc holds the datum at `base + i * stride`, and
everything else, every byte of memory included, is unchanged. Byte order, alignment, wrapping and the access check are D3,
D4, D5 and D20 (log 4, 5, 6, 24, 25); the drawn upper half of a loaded longword is D6 (log 7). -/
def Obligations.StridedLoads : Prop :=
  ∀ (s : State) (c : Cntrl) (base : Address) (stride : Longword), Cntrl.zeroUnder mbzLoad c = true →
    ((∀ i, Processed c s i → Loadable .long c.mi s (stridedAddr base stride i)) →
      ∃ t, exec (.vldl c base stride) s = .next t ∧ Unchanged { vreg := some c.vc, draws := true } s t ∧
        ∀ i, (Processed c s i → Loaded .long s t c.vc i (stridedAddr base stride i)) ∧
          (¬ Processed c s i → t.elem c.vc i = s.elem c.vc i)) ∧
    ((∀ i, Processed c s i → Loadable .quad c.mi s (stridedAddr base stride i)) →
      ∃ t, exec (.vldq c base stride) s = .next t ∧ Unchanged { vreg := some c.vc, draws := true } s t ∧
        ∀ i, (Processed c s i → Loaded .quad s t c.vc i (stridedAddr base stride i)) ∧
          (¬ Processed c s i → t.elem c.vc i = s.elem c.vc i))

/-- VGATHL and VGATHQ: the same with element `i` at `base + Vb[i]<31:0>`, the offset as it was before the instruction. Byte
order, alignment, wrapping and the access check are D3, D4, D5 and D20 (log 4, 5, 6, 24, 25); the drawn upper half of a
loaded longword is D6 (log 7). -/
def Obligations.Gathers : Prop :=
  ∀ (s : State) (c : Cntrl) (base : Address), Cntrl.zeroUnder mbzGather c = true →
    ((∀ i, Processed c s i → Loadable .long c.mi s (indexedAddr base (s.elem c.vb i))) →
      ∃ t, exec (.vgathl c base) s = .next t ∧ Unchanged { vreg := some c.vc, draws := true } s t ∧
        ∀ i, (Processed c s i → Loaded .long s t c.vc i (indexedAddr base (s.elem c.vb i))) ∧
          (¬ Processed c s i → t.elem c.vc i = s.elem c.vc i)) ∧
    ((∀ i, Processed c s i → Loadable .quad c.mi s (indexedAddr base (s.elem c.vb i))) →
      ∃ t, exec (.vgathq c base) s = .next t ∧ Unchanged { vreg := some c.vc, draws := true } s t ∧
        ∀ i, (Processed c s i → Loaded .quad s t c.vc i (indexedAddr base (s.elem c.vb i))) ∧
          (¬ Processed c s i → t.elem c.vc i = s.elem c.vc i))

/-- VSTL and VSTQ: when every processed element may be stored, each byte at `base + i * stride` and on holds what the
highest-numbered element stored there, every byte no processed element covers is unchanged, and so is everything else. Byte
order, alignment, wrapping, the order of stores and the access check are D3, D4, D5, D14 and D20 (log 4, 5, 6, 15, 24, 25).
-/
def Obligations.StridedStores : Prop :=
  ∀ (s : State) (c : Cntrl) (base : Address) (stride : Longword), Memory.wf s.mem = true →
    Cntrl.zeroUnder mbzStore c = true →
    ((∀ i, Processed c s i → Storable .long s (stridedAddr base stride i)) →
      ∃ t, exec (.vstl c base stride) s = .next t ∧ Unchanged { mem := true } s t ∧
        Stored .long c (stridedAddr base stride) s t) ∧
    ((∀ i, Processed c s i → Storable .quad s (stridedAddr base stride i)) →
      ∃ t, exec (.vstq c base stride) s = .next t ∧ Unchanged { mem := true } s t ∧
        Stored .quad c (stridedAddr base stride) s t)

/-- VSCATL and VSCATQ: the same with element `i` at `base + Vb[i]<31:0>`. Byte order, alignment, wrapping, the order of
stores and the access check are D3, D4, D5, D14 and D20 (log 4, 5, 6, 15, 24, 25). -/
def Obligations.Scatters : Prop :=
  ∀ (s : State) (c : Cntrl) (base : Address), Memory.wf s.mem = true → Cntrl.zeroUnder mbzScatter c = true →
    ((∀ i, Processed c s i → Storable .long s (indexedAddr base (s.elem c.vb i))) →
      ∃ t, exec (.vscatl c base) s = .next t ∧ Unchanged { mem := true } s t ∧
        Stored .long c (fun i => indexedAddr base (s.elem c.vb i)) s t) ∧
    ((∀ i, Processed c s i → Storable .quad s (indexedAddr base (s.elem c.vb i))) →
      ∃ t, exec (.vscatq c base) s = .next t ∧ Unchanged { mem := true } s t ∧
        Stored .quad c (fun i => indexedAddr base (s.elem c.vb i)) s t)

/-- A load or gather stops at the lowest-numbered processed element that may not be loaded: with vector alignment if its
address is not a multiple of the datum size, otherwise with what the access check answers, otherwise refused as device space.
The natural boundary is D4 (log 5); alignment before the access check is the spec's choice D24 (log 28); that device space is
tested after both is the model's own choice (log 25). -/
def Obligations.LoadStops : Prop :=
  ∀ (s : State) (c : Cntrl) (base : Address) (stride : Longword) (w : MemWidth) (indexed : Bool) (k : ElemIx),
    let addr := fun i => if indexed then indexedAddr base (s.elem c.vb i) else stridedAddr base stride i
    let i := match w, indexed with
      | .long, false => Instr.vldl c base stride
      | .quad, false => Instr.vldq c base stride
      | .long, true => Instr.vgathl c base
      | .quad, true => Instr.vgathq c base
    Cntrl.zeroUnder i.kind.mbz c = true →
    FirstProcessed c s (fun j => ¬ Loadable w c.mi s (addr j)) k →
    if (addr k).toNat % w.bytes ≠ 0 then ∃ left, exec i s = .fault (.raised (.vectorAlignment (addr k)) k left)
    else
      match accessCheck s (addr k) w.bytes (.read c.mi) with
      | .accessControlViolation => ∃ left, exec i s = .fault (.raised (.accessControlViolation (addr k)) k left)
      | .translationNotValid => ∃ left, exec i s = .fault (.raised (.translationNotValid (addr k)) k left)
      | .ok => exec i s = .refused (.deviceSpace (addr k))
      | .modify => False

/-- A store or scatter stops at the lowest-numbered processed element that may not be stored: with vector alignment, then
with what the access check answers, modify among it, then refused as device space or as program text. The natural boundary is
D4 (log 5); alignment before the access check is the spec's choice D24 (log 28); that device space and then the program text
(D21, log 2) are tested after both is the model's own choice (log 25). -/
def Obligations.StoreStops : Prop :=
  ∀ (s : State) (c : Cntrl) (base : Address) (stride : Longword) (w : MemWidth) (indexed : Bool) (k : ElemIx),
    let addr := fun i => if indexed then indexedAddr base (s.elem c.vb i) else stridedAddr base stride i
    let i := match w, indexed with
      | .long, false => Instr.vstl c base stride
      | .quad, false => Instr.vstq c base stride
      | .long, true => Instr.vscatl c base
      | .quad, true => Instr.vscatq c base
    Cntrl.zeroUnder i.kind.mbz c = true →
    FirstProcessed c s (fun j => ¬ Storable w s (addr j)) k →
    if (addr k).toNat % w.bytes ≠ 0 then ∃ left, exec i s = .fault (.raised (.vectorAlignment (addr k)) k left)
    else
      match accessCheck s (addr k) w.bytes .write with
      | .accessControlViolation => ∃ left, exec i s = .fault (.raised (.accessControlViolation (addr k)) k left)
      | .translationNotValid => ∃ left, exec i s = .fault (.raised (.translationNotValid (addr k)) k left)
      | .modify => ∃ left, exec i s = .fault (.raised (.modify (addr k)) k left)
      | .ok =>
        if inDeviceSpace s (addr k) w.bytes = true then exec i s = .refused (.deviceSpace (addr k))
        else exec i s = .refused (.storeToProgramText (addr k))

/-- Memory data are little-endian: byte `k` of a longword or quadword at an address is the byte at the address plus `k`, when
read, and is stored there; so the longword at an address is the low half of the quadword at it. Little-endian is the spec's
decision D3, log 4. -/
def Obligations.LittleEndianMemory : Prop :=
  ∀ (s : State) (a : Address),
    (∀ k, k < 4 → byteOf (s.readL a) k = s.byte (a + BitVec.ofNat 32 k)) ∧
    (∀ k, k < 8 → byteOf (s.readQ a).q k = s.byte (a + BitVec.ofNat 32 k)) ∧
    (s.readQ a).lo = s.readL a ∧
    (Memory.wf s.mem = true → ∀ (w : MemWidth) (e : Element) (b : Address),
      ((s.writeElem w a e).byte b = s.byte b ∨ Covers a w.bytes b) ∧
      ∀ k, k < w.bytes → (s.writeElem w a e).byte (a + BitVec.ofNat 32 k) = storedByte w e k)

/-- The address of element `i` of a strided access is `(base + i * stride) mod 2^32`, which is what adding the stride once
for every element gives; an indexed one is `(base + Vb[i]<31:0>) mod 2^32`. That addresses are 32 bits and wrap is the spec's
decision D5, log 6. -/
def Obligations.EffectiveAddresses : Prop :=
  ∀ (base : Address) (stride : Longword),
    (∀ i : ElemIx, (stridedAddr base stride i).toNat = (base.toNat + i.val * stride.toNat) % 2 ^ 32) ∧
    stridedAddr base stride 0 = base ∧
    (∀ i j : ElemIx, j.val = i.val + 1 → stridedAddr base stride j = stridedAddr base stride i + stride) ∧
    ∀ e : Element, (indexedAddr base e).toNat = (base.toNat + e.lo.toNat) % 2 ^ 32

/-! ### The whole machine -/

/-- No instruction writes anything but what the spec says it writes: only MTVP writes VLR, only IOTA and MTVP write VCR, only
the compares and MTVP write VMR, only stores and MFVP with a memory destination write memory, no vector register but the
destination is written, and no instruction writes the program text or the run's parameters. That a compare writes only VMR
and MFVP a scalar destination is as R25 and R142 say; the draw counter is the model's own field, log 7. -/
def Obligations.OnlyDestinationsWritten : Prop :=
  ∀ (i : Instr) (s t : State), exec i s = .next t → Unchanged (writesOf i) s t

/-- Every exception an instruction raises is one the table of R402 lists for it, underflow and integer overflow only when EXC
is 1, and the element it names is a processed one. The enabling is the spec's decision D12, log 13. -/
def Obligations.ExceptionsOfInstructions : Prop :=
  ∀ (i : Instr) (s : State) (e : Exc) (k : ElemIx) (left : State), exec i s = .fault (.raised e k left) →
    mayRaise i e = true ∧ ∃ c, i.cntrl = some c ∧ Processed c s k

/-- A control word with a field that the figures draw as 0 and that is not 0 is refused, in every instruction. The treatment
of these fields is the spec's decision D7, log 8. That this is the reason given also where another ground of refusal holds is
the model's own choice, log 42. -/
def Obligations.MustBeZeroFieldsRefused : Prop :=
  ∀ (i : Instr) (c : Cntrl) (s : State), i.cntrl = some c → Cntrl.zeroUnder i.kind.mbz c = false →
    exec i s = .refused .nonzeroMbzField

/-- Refusal by encoding is exactly ill-formedness: an instruction that is not well-formed is refused with a reason of its
encoding in every state, and a well-formed one is refused only for device space or a store into the program text. The
refusals are the spec's decisions D7, D8 and D9, log 8, 9 and 10; device space and the program text are D20 and D21, log 25
and 2. -/
def Obligations.RefusedExactlyWhenIllFormed : Prop :=
  ∀ (i : Instr) (s : State),
    (i.wellFormed = false → ∃ r, exec i s = .refused r ∧ r.ofEncoding = true) ∧
    (i.wellFormed = true → ∀ r, exec i s = .refused r → ∃ a, r = .deviceSpace a ∨ r = .storeToProgramText a)

/-- With VLR = 0 every well-formed instruction with an operation loop completes and changes nothing, but that IOTA writes 0
in VCR. -/
def Obligations.ZeroLengthChangesNothing : Prop :=
  ∀ (i : Instr) (s : State), s.vlr = 0 → i.wellFormed = true → i.kind ≠ .control →
    exec i s = if i.kind = .iota then .next { s with vcr := 0 } else .next s

/-- Bits 63:32 of source elements are ignored by the integer arithmetic, the shifts and the integer compares: two states that
differ in those bits alone lead to states that differ in those bits alone. -/
def Obligations.UpperHalvesIgnored : Prop :=
  ∀ (i : Instr) (s t s' : State),
    (i.kind = .intArith true ∨ i.kind = .intArith false ∨ i.kind = .shift true ∨ i.kind = .shift false ∨
      i.kind = .intCompare true ∨ i.kind = .intCompare false) →
    (∀ n k, (s.elem n k).lo = (t.elem n k).lo) → s.vlr = t.vlr → s.vmr = t.vmr → exec i s = .next s' →
    ∃ t', exec i t = .next t' ∧ (∀ n k, (s'.elem n k).lo = (t'.elem n k).lo) ∧ s'.vmr = t'.vmr

/-! ### Steps and reset -/

/-- A step at bytes that decode runs the decoded instruction to completion and moves the pc past its bytes; it stops as the
instruction stops. A step at bytes whose specifiers name registers or memory runs the instruction that the operand values
make, in the state the specifiers leave, which differs in the scalar registers alone, and stops as evaluating them stops. An
instruction whose bytes would cross address 2^32 is refused. The pc and the refusal at the top are D21, log 3; the evaluation
of specifiers is log 36 and 37. -/
def Obligations.StepRunsDecoded : Prop :=
  (∀ (s : State) (i : Instr) (n : Nat), decode s.fetchBytes = .ok (i, n) →
    step s =
      if s.pc.toNat + n ≤ 2 ^ 32 then
        match exec i s with
        | .next t => .next (t.fallThrough n)
        | .fault r => .fault r
        | .refused r => .refused r
      else .refused .crossesTop) ∧
  ∀ (s : State) (raw : RawInstr) (n : Nat), parse s.fetchBytes = .ok (raw, n) →
    (2 ^ 32 < s.pc.toNat + n → step s = .refused .crossesTop) ∧
    (s.pc.toNat + n ≤ 2 ^ 32 →
      (∀ vs s', resolveAll s raw.build.kinds raw.specs = .next (vs, s') →
        (∃ r, s' = { s with r := r }) ∧
        ∃ i, raw.build.apply vs = some i ∧
          step s =
            match exec i s' with
            | .next t => .next (t.fallThrough n)
            | .fault r => .fault r
            | .refused r => .refused r) ∧
      (∀ r, resolveAll s raw.build.kinds raw.specs = .fault r → step s = .fault r) ∧
      ∀ r, resolveAll s raw.build.kinds raw.specs = .refused r → step s = .refused r)

/-- Every step that completes falls through: the pc moves by the length of the instruction, at least 3 bytes and within the
address space, and the program text and the run's parameters are as before. The pc is D21, log 3. -/
def Obligations.StepFallsThrough : Prop :=
  ∀ s t : State, step s = .next t →
    ∃ raw n, parse s.fetchBytes = .ok (raw, n) ∧ 3 ≤ n ∧ n ≤ s.fetchBytes.length ∧ s.pc.toNat + n ≤ 2 ^ 32 ∧
      t.pc = s.pc + BitVec.ofNat 32 n ∧ t.text = s.text ∧ t.textBase = s.textBase ∧ t.access = s.access ∧
      t.devices = s.devices

/-- Every step keeps memory in canonical form and VLR at most 64. VLR at most 64 is D9 (log 10); the canonical form is the
model's. -/
def Obligations.StepKeepsInvariant : Prop :=
  ∀ s t : State, s.Inv → step s = .next t → t.Inv

/-- The reset state has memory in canonical form and VLR at most 64. The spec states no reset value: the values are the
model's choice, log 20 and 21. -/
def Obligations.ResetHasInvariant : Prop := State.reset.Inv

/-- The reset state. The spec states no reset value: every value here is the model's choice, log 20, 21, 22 and 35. -/
def Obligations.ResetState : Prop :=
  (∀ n i, State.reset.elem n i = ⟨0, 0⟩) ∧ State.reset.vlr = 0 ∧ State.reset.vcr = 0 ∧ State.reset.vmr = 0 ∧
    (∀ a, State.reset.byte a = 0) ∧ State.reset.pc = 0 ∧ (∀ n, State.reset.reg n = 0) ∧ State.reset.text = []

/-- Operand specifiers of a read longword. What the bytes of each mode of R83 are; what each mode gives, plain or under index
mode, and the register it updates; that index mode stands over any of them, another index mode included; and that R15 reads
as the address of the byte after the specifier, so that a displacement off it is relative to the pc, and keeps nothing that
is written to it. R83 is general knowledge of the spec; the evaluation order, side effects, R15, index over index, and the
index register's value before the base updates it are the model's, log 36 and 37. -/
def Obligations.LongwordOperandModes : Prop :=
  (∀ (n x : GReg) (rest : List Byte),
    (∀ v : BitVec 6, parseSpec .rl (v.setWidth 8 :: rest) = .ok (.literal v, rest)) ∧
    parseSpec .rl (modeByte 5 n :: rest) = .ok (.register n, rest) ∧
    (∀ v : Longword, parseSpec .rl (modeByte 8 15 :: (bytesOfLong v ++ rest)) = .ok (.immL v, rest)) ∧
    let reads := fun (bytes : List Byte) (m : MemMode) =>
      parseSpec .rl (bytes ++ rest) = .ok (.mem m, rest) ∧
      parseSpec .rl (modeByte 4 x :: (bytes ++ rest)) = .ok (.mem (.indexed x m), rest)
    reads [modeByte 6 n] (.deferred n) ∧ reads [modeByte 7 n] (.autodec n) ∧
    (n ≠ 15 → reads [modeByte 8 n] (.autoinc n) ∧ reads [modeByte 9 n] (.autoincDef n)) ∧
    (∀ a : Longword, reads (modeByte 9 15 :: bytesOfLong a) (.absolute a)) ∧
    (∀ d : Byte, reads [modeByte 10 n, d] (.disp n (d.signExtend 32)) ∧
      reads [modeByte 11 n, d] (.dispDef n (d.signExtend 32))) ∧
    (∀ d : Word, reads (modeByte 12 n :: bytesOfWord d) (.disp n (d.signExtend 32)) ∧
      reads (modeByte 13 n :: bytesOfWord d) (.dispDef n (d.signExtend 32))) ∧
    (∀ d : Longword, reads (modeByte 14 n :: bytesOfLong d) (.disp n d) ∧
      reads (modeByte 15 n :: bytesOfLong d) (.dispDef n d)) ∧
    ∀ (bytes : List Byte) (m : MemMode), reads bytes m → reads (modeByte 4 n :: bytes) (.indexed n m)) ∧
  (∀ (s : State) (r15 : Longword) (n x : GReg) (d : Longword),
    let value := s.general r15
    let readable := fun (u : State) (a : Address) => scalarAccess u a 4 (.read false) = .ok
    let gives := fun (m : MemMode) (a : Address) (u : State) =>
      (readable u a → resolve s r15 .rl (.mem m) = .next (.long (s.readL a), u)) ∧
      (readable u (a + value x * 4) →
        resolve s r15 .rl (.mem (.indexed x m)) = .next (.long (s.readL (a + value x * 4)), u))
    (∀ v : BitVec 6, resolve s r15 .rl (.literal v) = .next (.long (BitVec.ofNat 32 v.toNat), s)) ∧
    resolve s r15 .rl (.immL d) = .next (.long d, s) ∧
    resolve s r15 .rl (.register n) = .next (.long (value n), s) ∧
    gives (.deferred n) (value n) s ∧
    gives (.autodec n) (value n - 4) (s.setGeneral n (value n - 4)) ∧
    gives (.autoinc n) (value n) (s.setGeneral n (value n + 4)) ∧
    (readable (s.setGeneral n (value n + 4)) (value n) →
      gives (.autoincDef n) (s.readL (value n)) (s.setGeneral n (value n + 4))) ∧
    gives (.absolute d) d s ∧
    gives (.disp n d) (value n + d) s ∧
    (readable s (value n + d) → gives (.dispDef n d) (s.readL (value n + d)) s) ∧
    ∀ (m : MemMode) (a : Address) (u : State), memAddr s r15 4 m = .next (a, u) →
      gives m a u ∧ memAddr s r15 4 (.indexed n m) = .next (a + value n * 4, u)) ∧
  ∀ (s : State) (r15 y : Longword),
    s.general r15 15 = r15 ∧ s.setGeneral 15 y = s ∧
    (∀ m : Fin 15, s.general r15 m.castSucc = s.reg m ∧ s.setGeneral m.castSucc y = s.setReg m y) ∧
    ∀ (sp : Spec) (after : Nat) (v : OpVal) (u : State),
      resolve s (s.pc + BitVec.ofNat 32 after) .rl sp = .next (v, u) →
        resolveAll s [.rl] [⟨sp, after⟩] = .next ([v], u)
end

