-- ==== Sys2Proof/Laws/Cntrl.lean ====
section
/-! SUPPORT. The fields of a control word built from fields, the must-be-zero tests, and the function codes. -/

namespace Sys2Proof.Laws
/-- Each bit of a control word built from fields (R85). -/
theorem make_getLsbD (b15 b14 b13 : Bool) (f11 f7 f3 : BitVec 4) (n : Nat) :
    (Cntrl.make b15 b14 b13 f11 f7 f3).getLsbD n =
      if n < 4 then f3.getLsbD n else if n < 8 then f7.getLsbD (n - 4) else if n < 12 then f11.getLsbD (n - 8)
      else if n = 13 then b13 else if n = 14 then b14 else if n = 15 then b15 else false := by
  by_cases h : n < 16
  · simp only [Cntrl.make, BitVec.getLsbD_append]
    interval_cases n <;> simp
  · simp only [BitVec.getLsbD_of_ge _ n (by omega : 16 ≤ n)]
    repeat' split
    all_goals first | omega | rfl

/-- Every field under a mask is 0: bit by bit. -/
theorem zeroUnder_iff (m c : Cntrl) :
    Cntrl.zeroUnder m c = true ↔ ∀ n, n < 16 → m.getLsbD n = true → c.getLsbD n = false := by
  simp only [Cntrl.zeroUnder, beq_iff_eq]
  constructor
  · intro h n hn hm
    have := congrArg (fun x => x.getLsbD n) h
    simp [hm] at this
    exact this
  · intro h
    apply BitVec.eq_of_getLsbD_eq
    intro n hn
    have := h n hn
    cases hm : m.getLsbD n <;> simp_all

/-! ### Fields -/

@[simp] theorem make_moe (b15 b14 b13 : Bool) (f11 f7 f3 : BitVec 4) :
    (Cntrl.make b15 b14 b13 f11 f7 f3).moe = b15 := by simp [Cntrl.moe, make_getLsbD, -BitVec.getLsbD_eq_getElem]

@[simp] theorem make_mtf (b15 b14 b13 : Bool) (f11 f7 f3 : BitVec 4) :
    (Cntrl.make b15 b14 b13 f11 f7 f3).mtf = b14 := by simp [Cntrl.mtf, make_getLsbD, -BitVec.getLsbD_eq_getElem]

@[simp] theorem make_exc (b15 b14 b13 : Bool) (f11 f7 f3 : BitVec 4) :
    (Cntrl.make b15 b14 b13 f11 f7 f3).exc = b13 := by simp [Cntrl.exc, make_getLsbD, -BitVec.getLsbD_eq_getElem]

@[simp] theorem make_mi (b15 b14 b13 : Bool) (f11 f7 f3 : BitVec 4) :
    (Cntrl.make b15 b14 b13 f11 f7 f3).mi = b13 := by simp [Cntrl.mi, make_getLsbD, -BitVec.getLsbD_eq_getElem]

theorem make_field11 (b15 b14 b13 : Bool) (f11 f7 f3 : BitVec 4) :
    (Cntrl.make b15 b14 b13 f11 f7 f3).extractLsb' 8 4 = f11 := by
  apply BitVec.eq_of_getLsbD_eq
  intro n hn
  simp only [BitVec.getLsbD_extractLsb', make_getLsbD]
  interval_cases n <;> simp

theorem make_field7 (b15 b14 b13 : Bool) (f11 f7 f3 : BitVec 4) :
    (Cntrl.make b15 b14 b13 f11 f7 f3).extractLsb' 4 4 = f7 := by
  apply BitVec.eq_of_getLsbD_eq
  intro n hn
  simp only [BitVec.getLsbD_extractLsb', make_getLsbD]
  interval_cases n <;> simp

theorem make_field3 (b15 b14 b13 : Bool) (f11 f7 f3 : BitVec 4) :
    (Cntrl.make b15 b14 b13 f11 f7 f3).extractLsb' 0 4 = f3 := by
  apply BitVec.eq_of_getLsbD_eq
  intro n hn
  simp only [BitVec.getLsbD_extractLsb', make_getLsbD]
  interval_cases n <;> simp

@[simp] theorem make_va (b15 b14 b13 : Bool) (r : VReg) (f7 f3 : BitVec 4) :
    (Cntrl.make b15 b14 b13 r.field f7 f3).va = r := by rw [Cntrl.va, make_field11]; rfl

@[simp] theorem make_vb (b15 b14 b13 : Bool) (f11 : BitVec 4) (r : VReg) (f3 : BitVec 4) :
    (Cntrl.make b15 b14 b13 f11 r.field f3).vb = r := by rw [Cntrl.vb, make_field7]; rfl

@[simp] theorem make_vc (b15 b14 b13 : Bool) (f11 f7 : BitVec 4) (r : VReg) :
    (Cntrl.make b15 b14 b13 f11 f7 r.field).vc = r := by rw [Cntrl.vc, make_field3]; rfl

/-! ### Must-be-zero fields of built words -/

/-- A built word has bit 12 zero, which is all that the vector-vector forms with EXC ask. -/
@[simp] theorem make_mbzVV (b15 b14 b13 : Bool) (f11 f7 f3 : BitVec 4) :
    Cntrl.zeroUnder mbzVV (Cntrl.make b15 b14 b13 f11 f7 f3) = true := by
  simp only [zeroUnder_iff, mbzVV, make_getLsbD]
  intro n hn
  interval_cases n <;> simp

/-- A built word without EXC meets the vector-vector forms without EXC. -/
@[simp] theorem make_mbzVVNoExc (b15 b14 : Bool) (f11 f7 f3 : BitVec 4) :
    Cntrl.zeroUnder mbzVVNoExc (Cntrl.make b15 b14 false f11 f7 f3) = true := by
  simp only [zeroUnder_iff, mbzVVNoExc, make_getLsbD]
  intro n hn
  interval_cases n <;> simp

/-- A built word without EXC and first source meets the vector-scalar forms without EXC. -/
@[simp] theorem make_mbzVSNoExc (b15 b14 : Bool) (f7 f3 : BitVec 4) :
    Cntrl.zeroUnder mbzVSNoExc (Cntrl.make b15 b14 false 0#4 f7 f3) = true := by
  simp only [zeroUnder_iff, mbzVSNoExc, make_getLsbD]
  intro n hn
  interval_cases n <;> simp

/-- A built word with MTF, second source and destination alone meets VSMERGE. -/
@[simp] theorem make_mbzVSMerge (b14 : Bool) (f7 f3 : BitVec 4) :
    Cntrl.zeroUnder mbzVSMerge (Cntrl.make false b14 false 0#4 f7 f3) = true := by
  simp only [zeroUnder_iff, mbzVSMerge, make_getLsbD]
  intro n hn
  interval_cases n <;> simp

/-! ### Function codes -/

@[simp] theorem make_cmpBit3 (b15 b14 b13 : Bool) (f11 f7 : BitVec 4) (rel : Rel) :
    (Cntrl.make b15 b14 b13 f11 f7 rel.code).cmpBit3 = false := by
  simp only [Cntrl.cmpBit3, make_getLsbD]
  cases rel <;> rfl

/-- The relation of a built compare word is the one it was built with (R89, R117). -/
@[simp] theorem make_rel (b15 b14 b13 : Bool) (f11 f7 : BitVec 4) (rel : Rel) :
    (Cntrl.make b15 b14 b13 f11 f7 rel.code).rel = some rel := by
  have h : (Cntrl.make b15 b14 b13 f11 f7 rel.code).extractLsb' 0 3 = rel.code.extractLsb' 0 3 := by
    apply BitVec.eq_of_getLsbD_eq
    intro n hn
    simp only [BitVec.getLsbD_extractLsb', make_getLsbD]
    interval_cases n <;> simp
  rw [Cntrl.rel, h]
  cases rel <;> rfl

/-- The conversion of a built VVCVT word is the one it was built with (R90, R117). -/
@[simp] theorem make_cvtFunc (b15 b14 b13 : Bool) (f : CvtFunc) (f7 f3 : BitVec 4) :
    (Cntrl.make b15 b14 b13 f.code f7 f3).cvtFunc = some f := by
  rw [Cntrl.cvtFunc, make_field11]
  cases f <;> rfl

end Sys2Proof.Laws
end

