-- ==== Sys2Proof/Laws/Decode.lean ====
section
/-! SUPPORT. Byte order and specifier bytes: a value's bytes give it back, and a specifier's first byte its mode and register. -/

namespace Sys2Proof

/-- The bytes of a longword, in order, are the longword again (R51). -/
@[simp] theorem longOfBytes_byteOf (x : Longword) : longOfBytes (byteOf x 0) (byteOf x 1) (byteOf x 2) (byteOf x 3) = x := by
  unfold longOfBytes byteOf
  apply BitVec.eq_of_getLsbD_eq
  intro i hi
  simp only [BitVec.getLsbD_append, BitVec.getLsbD_extractLsb']
  repeat' split
  all_goals (simp; try omega)
  all_goals rw [decide_eq_true (by omega), Bool.true_and]; congr 1; omega

/-- The bytes of a word, in order, are the word again (R51). -/
@[simp] theorem wordOfBytes_byteOf (x : Word) : wordOfBytes (byteOf x 0) (byteOf x 1) = x := by
  unfold wordOfBytes byteOf
  apply BitVec.eq_of_getLsbD_eq
  intro i hi
  simp only [BitVec.getLsbD_append, BitVec.getLsbD_extractLsb']
  repeat' split
  all_goals (simp; try omega)
  all_goals rw [decide_eq_true (by omega), Bool.true_and]; congr 1; omega

/-- A longword is taken from its bytes. -/
@[simp] theorem takeLong_bytesOfLong (x : Longword) (rest : List Byte) :
    takeLong (bytesOfLong x ++ rest) = .ok (x, rest) := by simp [takeLong, bytesOfLong]

/-- A word is taken from its bytes. -/
@[simp] theorem takeWord_bytesOfWord (x : Word) (rest : List Byte) :
    takeWord (bytesOfWord x ++ rest) = .ok (x, rest) := by simp [takeWord, bytesOfWord]

namespace Machine

/-- A specifier's first byte has its mode in bits 7:4 and its register in bits 3:0 (R83). -/
theorem modeByte_fields {m : Nat} (hm : m < 16) (n : GReg) :
    ((modeByte m n).extractLsb' 4 4).toNat = m ∧ ((modeByte m n).extractLsb' 0 4).toFin = n := by
  have h : ∀ m : Fin 16, ∀ n : GReg,
      ((modeByte m n).extractLsb' 4 4).toNat = m ∧ ((modeByte m n).extractLsb' 0 4).toFin = n := by decide +kernel
  exact h ⟨m, hm⟩ n

end Machine

end Sys2Proof
end

