-- ==== Sys2Proof/Laws/Memory.lean ====
section
/-! SUPPORT. Memory: a read after a write, and the canonical form kept. -/

namespace Sys2Proof.Machine

theorem Memory.wfFrom_mono {m : Memory} {lo hi : Nat} (h : Memory.wfFrom hi m = true) (le : lo ≤ hi) :
    Memory.wfFrom lo m = true := by
  cases m with
  | nil => rfl
  | cons c m =>
    obtain ⟨b, w⟩ := c
    simp only [Memory.wfFrom, Bool.and_eq_true, decide_eq_true_eq] at h ⊢
    exact ⟨⟨⟨le.trans h.1.1.1, h.1.1.2⟩, h.1.2⟩, h.2⟩

theorem Memory.read_below {m : Memory} {lo a : Nat} (h : Memory.wfFrom lo m = true) (lt : a < lo) :
    Memory.read m a = Memory.unlisted := by
  cases m with
  | nil => rfl
  | cons c m =>
    obtain ⟨b, w⟩ := c
    simp only [Memory.wfFrom, Bool.and_eq_true, decide_eq_true_eq] at h
    have : a < b := by omega
    simp [Memory.read, this, Nat.ne_of_lt this]

/-- A write at an address from `lo` on keeps the canonical form from `lo` on. -/
theorem Memory.wfFrom_write {m : Memory} {lo a : Nat} (x : Byte) (h : Memory.wfFrom lo m = true) (le : lo ≤ a)
    (lt : a < 2 ^ 32) : Memory.wfFrom lo (Memory.write m a x) = true := by
  induction m generalizing lo with
  | nil =>
    simp only [Memory.write]
    split
    · rfl
    · next hx => simp only [Memory.wfFrom, Bool.and_true, Bool.and_eq_true, decide_eq_true_eq]; exact ⟨⟨le, lt⟩, hx⟩
  | cons c m ih =>
    obtain ⟨b, w⟩ := c
    have h' := h
    simp only [Memory.wfFrom, Bool.and_eq_true, decide_eq_true_eq] at h'
    obtain ⟨⟨⟨lb, bt⟩, wn⟩, tl⟩ := h'
    simp only [Memory.write]
    split
    · next e =>
      subst e
      split
      · exact Memory.wfFrom_mono tl (by omega)
      · next hx => simp only [Memory.wfFrom, Bool.and_eq_true, decide_eq_true_eq]; exact ⟨⟨⟨lb, bt⟩, hx⟩, tl⟩
    · split
      · next ab =>
        split
        · exact h
        · next hx =>
          simp only [Memory.wfFrom, Bool.and_eq_true, decide_eq_true_eq]
          exact ⟨⟨⟨le, lt⟩, hx⟩, ⟨⟨by omega, bt⟩, wn⟩, tl⟩
      · next ne nlt =>
        simp only [Memory.wfFrom, Bool.and_eq_true, decide_eq_true_eq]
        exact ⟨⟨⟨lb, bt⟩, wn⟩, ih tl (by omega)⟩

/-- A write keeps the canonical form. -/
theorem Memory.wf_write {m : Memory} {a : Nat} (x : Byte) (h : Memory.wf m = true) (lt : a < 2 ^ 32) :
    Memory.wf (Memory.write m a x) = true :=
  Memory.wfFrom_write x h (Nat.zero_le a) lt

theorem Memory.read_write_from {m : Memory} {lo : Nat} (a b : Nat) (x : Byte) (h : Memory.wfFrom lo m = true) :
    Memory.read (Memory.write m a x) b = if b = a then x else Memory.read m b := by
  induction m generalizing lo with
  | nil =>
    simp only [Memory.write]
    split
    · next hx => by_cases e : b = a <;> simp [Memory.read, e, hx]
    · by_cases e : b = a <;> simp [Memory.read, e]
  | cons c m ih =>
    obtain ⟨d, w⟩ := c
    simp only [Memory.wfFrom, Bool.and_eq_true, decide_eq_true_eq] at h
    obtain ⟨⟨⟨lb, bt⟩, wn⟩, tl⟩ := h
    simp only [Memory.write]
    split
    · next e =>
      subst e
      split
      · next hx =>
        by_cases e : b = a
        · subst e; simp [Memory.read_below tl (Nat.lt_succ_self b), hx]
        · simp only [Memory.read, if_neg e]
          split
          · next lt => exact Memory.read_below tl (by omega)
          · rfl
      · by_cases e : b = a <;> simp [Memory.read, e]
    · next ne =>
      split
      · next ad =>
        split
        · next hx =>
          by_cases e : b = a
          · subst e; simp [Memory.read, hx, ne, ad]
          · simp [e]
        · by_cases e : b = a
          · simp [Memory.read, e]
          · simp only [Memory.read, if_neg e]
            split
            · next lt => rw [if_neg (by omega), if_pos (by omega)]
            · rfl
      · next nlt =>
        simp only [Memory.read]
        rw [ih tl]
        by_cases e : b = a
        · subst e; simp [ne, nlt]
        · simp [e]

/-- A read after a write: the byte written, and every other byte as before. -/
theorem Memory.read_write {m : Memory} (a b : Nat) (x : Byte) (h : Memory.wf m = true) :
    Memory.read (Memory.write m a x) b = if b = a then x else Memory.read m b :=
  Memory.read_write_from a b x h

end Sys2Proof.Machine
end

