-- ==== Sys2Proof/Laws/State.lean ====
section
/-! SUPPORT. One lemma per field per update of the state, and what each named read gives after each named write. -/

namespace Sys2Proof.Machine

/-! ### `State.setElem` -/

@[simp] theorem State.setElem_vlr (s : State) (n : VReg) (i : ElemIx) (e : Element) : (s.setElem n i e).vlr = s.vlr := rfl
@[simp] theorem State.setElem_vcr (s : State) (n : VReg) (i : ElemIx) (e : Element) : (s.setElem n i e).vcr = s.vcr := rfl
@[simp] theorem State.setElem_vmr (s : State) (n : VReg) (i : ElemIx) (e : Element) : (s.setElem n i e).vmr = s.vmr := rfl
@[simp] theorem State.setElem_mem (s : State) (n : VReg) (i : ElemIx) (e : Element) : (s.setElem n i e).mem = s.mem := rfl
@[simp] theorem State.setElem_pc (s : State) (n : VReg) (i : ElemIx) (e : Element) : (s.setElem n i e).pc = s.pc := rfl
@[simp] theorem State.setElem_r (s : State) (n : VReg) (i : ElemIx) (e : Element) : (s.setElem n i e).r = s.r := rfl
@[simp] theorem State.setElem_text (s : State) (n : VReg) (i : ElemIx) (e : Element) : (s.setElem n i e).text = s.text := rfl
@[simp] theorem State.setElem_textBase (s : State) (n : VReg) (i : ElemIx) (e : Element) : (s.setElem n i e).textBase = s.textBase := rfl
@[simp] theorem State.setElem_access (s : State) (n : VReg) (i : ElemIx) (e : Element) : (s.setElem n i e).access = s.access := rfl
@[simp] theorem State.setElem_devices (s : State) (n : VReg) (i : ElemIx) (e : Element) : (s.setElem n i e).devices = s.devices := rfl
@[simp] theorem State.setElem_draws (s : State) (n : VReg) (i : ElemIx) (e : Element) : (s.setElem n i e).draws = s.draws := rfl
theorem State.setElem_v (s : State) (n : VReg) (i : ElemIx) (e : Element) : (s.setElem n i e).v = s.v.set n ((s.v[n]).set i e) :=
  rfl

/-! ### `State.setLow` -/

@[simp] theorem State.setLow_vlr (s : State) (n : VReg) (i : ElemIx) (x : Longword) : (s.setLow n i x).vlr = s.vlr := rfl
@[simp] theorem State.setLow_vcr (s : State) (n : VReg) (i : ElemIx) (x : Longword) : (s.setLow n i x).vcr = s.vcr := rfl
@[simp] theorem State.setLow_vmr (s : State) (n : VReg) (i : ElemIx) (x : Longword) : (s.setLow n i x).vmr = s.vmr := rfl
@[simp] theorem State.setLow_mem (s : State) (n : VReg) (i : ElemIx) (x : Longword) : (s.setLow n i x).mem = s.mem := rfl
@[simp] theorem State.setLow_pc (s : State) (n : VReg) (i : ElemIx) (x : Longword) : (s.setLow n i x).pc = s.pc := rfl
@[simp] theorem State.setLow_r (s : State) (n : VReg) (i : ElemIx) (x : Longword) : (s.setLow n i x).r = s.r := rfl
@[simp] theorem State.setLow_text (s : State) (n : VReg) (i : ElemIx) (x : Longword) : (s.setLow n i x).text = s.text := rfl
@[simp] theorem State.setLow_textBase (s : State) (n : VReg) (i : ElemIx) (x : Longword) : (s.setLow n i x).textBase = s.textBase := rfl
@[simp] theorem State.setLow_access (s : State) (n : VReg) (i : ElemIx) (x : Longword) : (s.setLow n i x).access = s.access := rfl
@[simp] theorem State.setLow_devices (s : State) (n : VReg) (i : ElemIx) (x : Longword) : (s.setLow n i x).devices = s.devices := rfl
@[simp] theorem State.setLow_draws (s : State) (n : VReg) (i : ElemIx) (x : Longword) :
    (s.setLow n i x).draws = s.draws + 1 := rfl
theorem State.setLow_v (s : State) (n : VReg) (i : ElemIx) (x : Longword) :
    (s.setLow n i x).v = (s.setElem n i ⟨Config.draw32 s.draws, x⟩).v := rfl

/-! ### `State.setMaskBit` -/

@[simp] theorem State.setMaskBit_v (s : State) (i : ElemIx) (b : Bool) : (s.setMaskBit i b).v = s.v := rfl
@[simp] theorem State.setMaskBit_vlr (s : State) (i : ElemIx) (b : Bool) : (s.setMaskBit i b).vlr = s.vlr := rfl
@[simp] theorem State.setMaskBit_vcr (s : State) (i : ElemIx) (b : Bool) : (s.setMaskBit i b).vcr = s.vcr := rfl
@[simp] theorem State.setMaskBit_mem (s : State) (i : ElemIx) (b : Bool) : (s.setMaskBit i b).mem = s.mem := rfl
@[simp] theorem State.setMaskBit_pc (s : State) (i : ElemIx) (b : Bool) : (s.setMaskBit i b).pc = s.pc := rfl
@[simp] theorem State.setMaskBit_r (s : State) (i : ElemIx) (b : Bool) : (s.setMaskBit i b).r = s.r := rfl
@[simp] theorem State.setMaskBit_text (s : State) (i : ElemIx) (b : Bool) : (s.setMaskBit i b).text = s.text := rfl
@[simp] theorem State.setMaskBit_textBase (s : State) (i : ElemIx) (b : Bool) : (s.setMaskBit i b).textBase = s.textBase := rfl
@[simp] theorem State.setMaskBit_access (s : State) (i : ElemIx) (b : Bool) : (s.setMaskBit i b).access = s.access := rfl
@[simp] theorem State.setMaskBit_devices (s : State) (i : ElemIx) (b : Bool) : (s.setMaskBit i b).devices = s.devices := rfl
@[simp] theorem State.setMaskBit_draws (s : State) (i : ElemIx) (b : Bool) : (s.setMaskBit i b).draws = s.draws := rfl
theorem State.setMaskBit_vmr (s : State) (i : ElemIx) (b : Bool) : (s.setMaskBit i b).vmr = Machine.setMaskBit s.vmr i b :=
  rfl

/-! ### `State.setReg` -/

@[simp] theorem State.setReg_v (s : State) (n : Fin 15) (x : Longword) : (s.setReg n x).v = s.v := rfl
@[simp] theorem State.setReg_vlr (s : State) (n : Fin 15) (x : Longword) : (s.setReg n x).vlr = s.vlr := rfl
@[simp] theorem State.setReg_vcr (s : State) (n : Fin 15) (x : Longword) : (s.setReg n x).vcr = s.vcr := rfl
@[simp] theorem State.setReg_vmr (s : State) (n : Fin 15) (x : Longword) : (s.setReg n x).vmr = s.vmr := rfl
@[simp] theorem State.setReg_mem (s : State) (n : Fin 15) (x : Longword) : (s.setReg n x).mem = s.mem := rfl
@[simp] theorem State.setReg_pc (s : State) (n : Fin 15) (x : Longword) : (s.setReg n x).pc = s.pc := rfl
@[simp] theorem State.setReg_text (s : State) (n : Fin 15) (x : Longword) : (s.setReg n x).text = s.text := rfl
@[simp] theorem State.setReg_textBase (s : State) (n : Fin 15) (x : Longword) : (s.setReg n x).textBase = s.textBase := rfl
@[simp] theorem State.setReg_access (s : State) (n : Fin 15) (x : Longword) : (s.setReg n x).access = s.access := rfl
@[simp] theorem State.setReg_devices (s : State) (n : Fin 15) (x : Longword) : (s.setReg n x).devices = s.devices := rfl
@[simp] theorem State.setReg_draws (s : State) (n : Fin 15) (x : Longword) : (s.setReg n x).draws = s.draws := rfl
theorem State.setReg_r (s : State) (n : Fin 15) (x : Longword) : (s.setReg n x).r = s.r.set n x := rfl

/-! ### `State.setGeneral` -/

@[simp] theorem State.setGeneral_v (s : State) (n : GReg) (x : Longword) : (s.setGeneral n x).v = s.v := by
  unfold State.setGeneral; split <;> rfl
@[simp] theorem State.setGeneral_vlr (s : State) (n : GReg) (x : Longword) : (s.setGeneral n x).vlr = s.vlr := by
  unfold State.setGeneral; split <;> rfl
@[simp] theorem State.setGeneral_vcr (s : State) (n : GReg) (x : Longword) : (s.setGeneral n x).vcr = s.vcr := by
  unfold State.setGeneral; split <;> rfl
@[simp] theorem State.setGeneral_vmr (s : State) (n : GReg) (x : Longword) : (s.setGeneral n x).vmr = s.vmr := by
  unfold State.setGeneral; split <;> rfl
@[simp] theorem State.setGeneral_mem (s : State) (n : GReg) (x : Longword) : (s.setGeneral n x).mem = s.mem := by
  unfold State.setGeneral; split <;> rfl
@[simp] theorem State.setGeneral_pc (s : State) (n : GReg) (x : Longword) : (s.setGeneral n x).pc = s.pc := by
  unfold State.setGeneral; split <;> rfl
@[simp] theorem State.setGeneral_text (s : State) (n : GReg) (x : Longword) : (s.setGeneral n x).text = s.text := by
  unfold State.setGeneral; split <;> rfl
@[simp] theorem State.setGeneral_textBase (s : State) (n : GReg) (x : Longword) : (s.setGeneral n x).textBase = s.textBase := by
  unfold State.setGeneral; split <;> rfl
@[simp] theorem State.setGeneral_access (s : State) (n : GReg) (x : Longword) : (s.setGeneral n x).access = s.access := by
  unfold State.setGeneral; split <;> rfl
@[simp] theorem State.setGeneral_devices (s : State) (n : GReg) (x : Longword) : (s.setGeneral n x).devices = s.devices := by
  unfold State.setGeneral; split <;> rfl
@[simp] theorem State.setGeneral_draws (s : State) (n : GReg) (x : Longword) : (s.setGeneral n x).draws = s.draws := by
  unfold State.setGeneral; split <;> rfl
/-- Writing a general register changes the scalar registers alone. -/
theorem State.setGeneral_eq (s : State) (n : GReg) (x : Longword) : ∃ r, s.setGeneral n x = { s with r := r } := by
  unfold State.setGeneral
  split
  · exact ⟨_, rfl⟩
  · exact ⟨s.r, rfl⟩
@[simp] theorem State.setGeneral_castSucc (s : State) (n : Fin 15) (x : Longword) :
    s.setGeneral n.castSucc x = s.setReg n x := by simp [State.setGeneral]
@[simp] theorem State.setGeneral_15 (s : State) (x : Longword) : s.setGeneral 15 x = s := rfl
@[simp] theorem State.general_castSucc (s : State) (r15 : Longword) (n : Fin 15) :
    s.general r15 n.castSucc = s.reg n := by simp [State.general]
@[simp] theorem State.general_15 (s : State) (r15 : Longword) : s.general r15 15 = r15 := rfl

/-! ### `State.writeByte` -/

@[simp] theorem State.writeByte_v (s : State) (a : Address) (x : Byte) : (s.writeByte a x).v = s.v := rfl
@[simp] theorem State.writeByte_vlr (s : State) (a : Address) (x : Byte) : (s.writeByte a x).vlr = s.vlr := rfl
@[simp] theorem State.writeByte_vcr (s : State) (a : Address) (x : Byte) : (s.writeByte a x).vcr = s.vcr := rfl
@[simp] theorem State.writeByte_vmr (s : State) (a : Address) (x : Byte) : (s.writeByte a x).vmr = s.vmr := rfl
@[simp] theorem State.writeByte_pc (s : State) (a : Address) (x : Byte) : (s.writeByte a x).pc = s.pc := rfl
@[simp] theorem State.writeByte_r (s : State) (a : Address) (x : Byte) : (s.writeByte a x).r = s.r := rfl
@[simp] theorem State.writeByte_text (s : State) (a : Address) (x : Byte) : (s.writeByte a x).text = s.text := rfl
@[simp] theorem State.writeByte_textBase (s : State) (a : Address) (x : Byte) : (s.writeByte a x).textBase = s.textBase := rfl
@[simp] theorem State.writeByte_access (s : State) (a : Address) (x : Byte) : (s.writeByte a x).access = s.access := rfl
@[simp] theorem State.writeByte_devices (s : State) (a : Address) (x : Byte) : (s.writeByte a x).devices = s.devices := rfl
@[simp] theorem State.writeByte_draws (s : State) (a : Address) (x : Byte) : (s.writeByte a x).draws = s.draws := rfl
theorem State.writeByte_mem (s : State) (a : Address) (x : Byte) : (s.writeByte a x).mem = Memory.write s.mem a.toNat x :=
  rfl

/-! ### `State.writeL` -/

@[simp] theorem State.writeL_v (s : State) (a : Address) (x : Longword) : (s.writeL a x).v = s.v := by
  simp only [State.writeL, State.writeByte_v]
@[simp] theorem State.writeL_vlr (s : State) (a : Address) (x : Longword) : (s.writeL a x).vlr = s.vlr := by
  simp only [State.writeL, State.writeByte_vlr]
@[simp] theorem State.writeL_vcr (s : State) (a : Address) (x : Longword) : (s.writeL a x).vcr = s.vcr := by
  simp only [State.writeL, State.writeByte_vcr]
@[simp] theorem State.writeL_vmr (s : State) (a : Address) (x : Longword) : (s.writeL a x).vmr = s.vmr := by
  simp only [State.writeL, State.writeByte_vmr]
@[simp] theorem State.writeL_pc (s : State) (a : Address) (x : Longword) : (s.writeL a x).pc = s.pc := by
  simp only [State.writeL, State.writeByte_pc]
@[simp] theorem State.writeL_r (s : State) (a : Address) (x : Longword) : (s.writeL a x).r = s.r := by
  simp only [State.writeL, State.writeByte_r]
@[simp] theorem State.writeL_text (s : State) (a : Address) (x : Longword) : (s.writeL a x).text = s.text := by
  simp only [State.writeL, State.writeByte_text]
@[simp] theorem State.writeL_textBase (s : State) (a : Address) (x : Longword) : (s.writeL a x).textBase = s.textBase := by
  simp only [State.writeL, State.writeByte_textBase]
@[simp] theorem State.writeL_access (s : State) (a : Address) (x : Longword) : (s.writeL a x).access = s.access := by
  simp only [State.writeL, State.writeByte_access]
@[simp] theorem State.writeL_devices (s : State) (a : Address) (x : Longword) : (s.writeL a x).devices = s.devices := by
  simp only [State.writeL, State.writeByte_devices]
@[simp] theorem State.writeL_draws (s : State) (a : Address) (x : Longword) : (s.writeL a x).draws = s.draws := by
  simp only [State.writeL, State.writeByte_draws]

/-! ### `State.writeQ` -/

@[simp] theorem State.writeQ_v (s : State) (a : Address) (e : Element) : (s.writeQ a e).v = s.v := by
  simp only [State.writeQ, State.writeL_v]
@[simp] theorem State.writeQ_vlr (s : State) (a : Address) (e : Element) : (s.writeQ a e).vlr = s.vlr := by
  simp only [State.writeQ, State.writeL_vlr]
@[simp] theorem State.writeQ_vcr (s : State) (a : Address) (e : Element) : (s.writeQ a e).vcr = s.vcr := by
  simp only [State.writeQ, State.writeL_vcr]
@[simp] theorem State.writeQ_vmr (s : State) (a : Address) (e : Element) : (s.writeQ a e).vmr = s.vmr := by
  simp only [State.writeQ, State.writeL_vmr]
@[simp] theorem State.writeQ_pc (s : State) (a : Address) (e : Element) : (s.writeQ a e).pc = s.pc := by
  simp only [State.writeQ, State.writeL_pc]
@[simp] theorem State.writeQ_r (s : State) (a : Address) (e : Element) : (s.writeQ a e).r = s.r := by
  simp only [State.writeQ, State.writeL_r]
@[simp] theorem State.writeQ_text (s : State) (a : Address) (e : Element) : (s.writeQ a e).text = s.text := by
  simp only [State.writeQ, State.writeL_text]
@[simp] theorem State.writeQ_textBase (s : State) (a : Address) (e : Element) : (s.writeQ a e).textBase = s.textBase := by
  simp only [State.writeQ, State.writeL_textBase]
@[simp] theorem State.writeQ_access (s : State) (a : Address) (e : Element) : (s.writeQ a e).access = s.access := by
  simp only [State.writeQ, State.writeL_access]
@[simp] theorem State.writeQ_devices (s : State) (a : Address) (e : Element) : (s.writeQ a e).devices = s.devices := by
  simp only [State.writeQ, State.writeL_devices]
@[simp] theorem State.writeQ_draws (s : State) (a : Address) (e : Element) : (s.writeQ a e).draws = s.draws := by
  simp only [State.writeQ, State.writeL_draws]

/-! ### `State.fallThrough` -/

@[simp] theorem State.fallThrough_v (s : State) (n : Nat) : (s.fallThrough n).v = s.v := rfl
@[simp] theorem State.fallThrough_vlr (s : State) (n : Nat) : (s.fallThrough n).vlr = s.vlr := rfl
@[simp] theorem State.fallThrough_vcr (s : State) (n : Nat) : (s.fallThrough n).vcr = s.vcr := rfl
@[simp] theorem State.fallThrough_vmr (s : State) (n : Nat) : (s.fallThrough n).vmr = s.vmr := rfl
@[simp] theorem State.fallThrough_mem (s : State) (n : Nat) : (s.fallThrough n).mem = s.mem := rfl
@[simp] theorem State.fallThrough_r (s : State) (n : Nat) : (s.fallThrough n).r = s.r := rfl
@[simp] theorem State.fallThrough_text (s : State) (n : Nat) : (s.fallThrough n).text = s.text := rfl
@[simp] theorem State.fallThrough_textBase (s : State) (n : Nat) : (s.fallThrough n).textBase = s.textBase := rfl
@[simp] theorem State.fallThrough_access (s : State) (n : Nat) : (s.fallThrough n).access = s.access := rfl
@[simp] theorem State.fallThrough_devices (s : State) (n : Nat) : (s.fallThrough n).devices = s.devices := rfl
@[simp] theorem State.fallThrough_draws (s : State) (n : Nat) : (s.fallThrough n).draws = s.draws := rfl
theorem State.fallThrough_pc (s : State) (n : Nat) : (s.fallThrough n).pc = s.pc + BitVec.ofNat 32 n := rfl

/-! ### `State.writeElem` -/

@[simp] theorem State.writeElem_v (s : State) (w : MemWidth) (a : Address) (e : Element) :
    (s.writeElem w a e).v = s.v := by
  cases w <;> simp only [State.writeElem, State.writeL_v, State.writeQ_v]
@[simp] theorem State.writeElem_vlr (s : State) (w : MemWidth) (a : Address) (e : Element) :
    (s.writeElem w a e).vlr = s.vlr := by
  cases w <;> simp only [State.writeElem, State.writeL_vlr, State.writeQ_vlr]
@[simp] theorem State.writeElem_vcr (s : State) (w : MemWidth) (a : Address) (e : Element) :
    (s.writeElem w a e).vcr = s.vcr := by
  cases w <;> simp only [State.writeElem, State.writeL_vcr, State.writeQ_vcr]
@[simp] theorem State.writeElem_vmr (s : State) (w : MemWidth) (a : Address) (e : Element) :
    (s.writeElem w a e).vmr = s.vmr := by
  cases w <;> simp only [State.writeElem, State.writeL_vmr, State.writeQ_vmr]
@[simp] theorem State.writeElem_pc (s : State) (w : MemWidth) (a : Address) (e : Element) :
    (s.writeElem w a e).pc = s.pc := by
  cases w <;> simp only [State.writeElem, State.writeL_pc, State.writeQ_pc]
@[simp] theorem State.writeElem_r (s : State) (w : MemWidth) (a : Address) (e : Element) :
    (s.writeElem w a e).r = s.r := by
  cases w <;> simp only [State.writeElem, State.writeL_r, State.writeQ_r]
@[simp] theorem State.writeElem_text (s : State) (w : MemWidth) (a : Address) (e : Element) :
    (s.writeElem w a e).text = s.text := by
  cases w <;> simp only [State.writeElem, State.writeL_text, State.writeQ_text]
@[simp] theorem State.writeElem_textBase (s : State) (w : MemWidth) (a : Address) (e : Element) :
    (s.writeElem w a e).textBase = s.textBase := by
  cases w <;> simp only [State.writeElem, State.writeL_textBase, State.writeQ_textBase]
@[simp] theorem State.writeElem_access (s : State) (w : MemWidth) (a : Address) (e : Element) :
    (s.writeElem w a e).access = s.access := by
  cases w <;> simp only [State.writeElem, State.writeL_access, State.writeQ_access]
@[simp] theorem State.writeElem_devices (s : State) (w : MemWidth) (a : Address) (e : Element) :
    (s.writeElem w a e).devices = s.devices := by
  cases w <;> simp only [State.writeElem, State.writeL_devices, State.writeQ_devices]
@[simp] theorem State.writeElem_draws (s : State) (w : MemWidth) (a : Address) (e : Element) :
    (s.writeElem w a e).draws = s.draws := by
  cases w <;> simp only [State.writeElem, State.writeL_draws, State.writeQ_draws]

/-! ### Reads after writes -/

theorem State.elem_setElem (s : State) (n m : VReg) (i j : ElemIx) (e : Element) :
    (s.setElem n i e).elem m j = if m = n ∧ j = i then e else s.elem m j := by
  by_cases hm : m = n
  · subst hm
    by_cases hj : j = i
    · subst hj; simp [State.elem, State.setElem]
    · have : (i : Nat) ≠ j := fun h => hj (Fin.ext h.symm)
      simp [State.elem, State.setElem, hj, this]
  · have : (n : Nat) ≠ m := fun h => hm (Fin.ext h.symm)
    simp [State.elem, State.setElem, hm, this]

theorem State.elem_setLow (s : State) (n m : VReg) (i j : ElemIx) (x : Longword) :
    (s.setLow n i x).elem m j = if m = n ∧ j = i then ⟨Config.draw32 s.draws, x⟩ else s.elem m j :=
  State.elem_setElem s n m i j ⟨Config.draw32 s.draws, x⟩

theorem State.reg_setReg (s : State) (n m : Fin 15) (x : Longword) :
    (s.setReg n x).reg m = if m = n then x else s.reg m := by
  by_cases hm : m = n
  · subst hm; simp [State.reg, State.setReg]
  · have : (n : Nat) ≠ m := fun h => hm (Fin.ext h.symm)
    simp [State.reg, State.setReg, hm, this]

/-- A general register read after one is written: R15 keeps nothing. -/
theorem State.reg_setGeneral (s : State) (n : GReg) (m : Fin 15) (x : Longword) :
    (s.setGeneral n x).reg m = if m.castSucc = n then x else s.reg m := by
  unfold State.setGeneral
  split
  · next h => rw [State.reg_setReg]; exact if_congr (by simp [Fin.ext_iff]) rfl rfl
  · next h =>
    have : m.castSucc ≠ n := fun e => h (by rw [← e]; exact m.isLt)
    rw [if_neg this]

theorem setMaskBit_getLsbD (m : BitVec 64) (i j : ElemIx) (b : Bool) :
    (Machine.setMaskBit m i b).getLsbD j = if j = i then b else m.getLsbD j := by
  have hj : j.val < 64 := j.isLt
  by_cases h : j = i
  · subst h
    cases b <;> simp [Machine.setMaskBit, hj]
  · have h' : (j : Nat) ≠ i := fun e => h (Fin.ext e)
    have : (1#64 <<< i.val).getLsbD j = false := by
      simp only [BitVec.getLsbD_shiftLeft, BitVec.getLsbD_one]
      by_cases l : j.val < i.val
      · simp [l]
      · have : j.val - i.val ≠ 0 := by omega
        simp [this]
    cases b
    · simp only [Machine.setMaskBit, Bool.false_eq_true, if_false, BitVec.getLsbD_and, BitVec.getLsbD_not, this]
      simp [h, hj]
    · simp only [Machine.setMaskBit, if_true, BitVec.getLsbD_or, this]
      simp [h]

theorem State.maskBit_setMaskBit (s : State) (i j : ElemIx) (b : Bool) :
    (s.setMaskBit i b).maskBit j = if j = i then b else s.maskBit j :=
  setMaskBit_getLsbD s.vmr i j b

theorem State.byte_writeByte (s : State) (h : Memory.wf s.mem = true) (a b : Address) (x : Byte) :
    (s.writeByte a x).byte b = if b = a then x else s.byte b := by
  simp only [State.byte, State.writeByte, Memory.read_write a.toNat b.toNat x h, BitVec.toNat_inj]

theorem State.wf_writeByte {s : State} (h : Memory.wf s.mem = true) (a : Address) (x : Byte) :
    Memory.wf (s.writeByte a x).mem = true :=
  Memory.wf_write x h a.isLt

theorem State.wf_writeL {s : State} (h : Memory.wf s.mem = true) (a : Address) (x : Longword) :
    Memory.wf (s.writeL a x).mem = true :=
  State.wf_writeByte (State.wf_writeByte (State.wf_writeByte (State.wf_writeByte h _ _) _ _) _ _) _ _

theorem State.wf_writeQ {s : State} (h : Memory.wf s.mem = true) (a : Address) (e : Element) :
    Memory.wf (s.writeQ a e).mem = true :=
  State.wf_writeL (State.wf_writeL h a e.lo) (a + 4) e.hi

theorem State.wf_writeElem {s : State} (h : Memory.wf s.mem = true) (w : MemWidth) (a : Address) (e : Element) :
    Memory.wf (s.writeElem w a e).mem = true := by
  cases w
  · exact State.wf_writeL h a e.lo
  · exact State.wf_writeQ h a e

/-- Memory after a longword store: byte `k` at `a + k`, and every other byte as before (R51). -/
theorem State.byte_writeL (s : State) (h : Memory.wf s.mem = true) (a b : Address) (x : Longword) :
    (s.writeL a x).byte b =
      if b = a + 3 then byteOf x 3 else if b = a + 2 then byteOf x 2 else if b = a + 1 then byteOf x 1
      else if b = a then byteOf x 0 else s.byte b := by
  unfold State.writeL
  rw [State.byte_writeByte _ (State.wf_writeByte (State.wf_writeByte (State.wf_writeByte h _ _) _ _) _ _),
    State.byte_writeByte _ (State.wf_writeByte (State.wf_writeByte h _ _) _ _),
    State.byte_writeByte _ (State.wf_writeByte h _ _), State.byte_writeByte _ h]

theorem State.byte_writeL_at (s : State) (h : Memory.wf s.mem = true) (a : Address) (x : Longword) (k : Nat)
    (hk : k < 4) : (s.writeL a x).byte (a + BitVec.ofNat 32 k) = byteOf x k := by
  rw [State.byte_writeL s h]
  have : k = 0 ∨ k = 1 ∨ k = 2 ∨ k = 3 := by omega
  rcases this with rfl | rfl | rfl | rfl <;> simp

theorem State.byte_writeL_off (s : State) (h : Memory.wf s.mem = true) (a b : Address) (x : Longword)
    (hb : ∀ k, k < 4 → b ≠ a + BitVec.ofNat 32 k) : (s.writeL a x).byte b = s.byte b := by
  rw [State.byte_writeL s h]
  have h0 : b ≠ a := by simpa using hb 0 (by omega)
  have h1 : b ≠ a + 1 := hb 1 (by omega)
  have h2 : b ≠ a + 2 := hb 2 (by omega)
  have h3 : b ≠ a + 3 := hb 3 (by omega)
  rw [if_neg h3, if_neg h2, if_neg h1, if_neg h0]

end Sys2Proof.Machine
end

