-- ==== Sys2Proof/Laws/Loops.lean ====
section
/-! SUPPORT. What each shared element loop can do, said once: it completes with its results and its frame, or stops at the
lowest-numbered element that stops. -/

namespace Sys2Proof.Machine

/-! ### Elements and masks -/

theorem State.mem_elements (s : State) (i : ElemIx) : i ∈ s.elements ↔ i.val < s.vlr.toNat := by
  simp [State.elements]

theorem State.elements_sorted (s : State) : s.elements.Pairwise (· < ·) :=
  (List.pairwise_lt_finRange NELEM).filter _

theorem enabled_iff (c : Cntrl) (s : State) (i : ElemIx) :
    enabled c s i = true ↔ (c.moe = false ∨ s.maskBit i = c.mtf) := by
  simp [enabled]

theorem processed_iff (c : Cntrl) (s : State) (i : ElemIx) :
    Processed c s i ↔ i ∈ s.elements ∧ enabled c s i = true := by
  rw [Processed, State.mem_elements, enabled_iff]

/-! ### Frames -/

theorem Unchanged.refl (w : Writes) (s : State) : Unchanged w s s where
  vreg := fun _ _ _ => rfl
  vlr := fun _ => rfl
  vcr := fun _ => rfl
  vmr := fun _ => rfl
  mem := fun _ _ => rfl
  scalar := fun _ _ => rfl
  draws := fun _ => rfl
  pc := rfl
  text := rfl
  textBase := rfl
  access := rfl
  devices := rfl

theorem Unchanged.trans {w : Writes} {s t u : State} (h : Unchanged w s t) (g : Unchanged w t u) : Unchanged w s u where
  vreg := fun n i e => (g.vreg n i e).trans (h.vreg n i e)
  vlr := fun e => (g.vlr e).trans (h.vlr e)
  vcr := fun e => (g.vcr e).trans (h.vcr e)
  vmr := fun e => (g.vmr e).trans (h.vmr e)
  mem := fun e a => (g.mem e a).trans (h.mem e a)
  scalar := fun n e => (g.scalar n e).trans (h.scalar n e)
  draws := fun e => (g.draws e).trans (h.draws e)
  pc := g.pc.trans h.pc
  text := g.text.trans h.text
  textBase := g.textBase.trans h.textBase
  access := g.access.trans h.access
  devices := g.devices.trans h.devices

/-- What a register-writing instruction may write. -/
abbrev registerWrites (vc : VReg) : Writes := { vreg := some vc, draws := true }

theorem Unchanged.setElem (s : State) (vc : VReg) (i : ElemIx) (e : Element) :
    Unchanged (registerWrites vc) s (s.setElem vc i e) where
  vreg := fun n j h => by
    rw [State.elem_setElem, if_neg]
    rintro ⟨rfl, _⟩
    exact h rfl
  vlr := fun _ => rfl
  vcr := fun _ => rfl
  vmr := fun _ => rfl
  mem := fun _ _ => rfl
  scalar := fun _ _ => rfl
  draws := fun h => by cases h
  pc := rfl
  text := rfl
  textBase := rfl
  access := rfl
  devices := rfl

theorem Unchanged.setLow (s : State) (vc : VReg) (i : ElemIx) (x : Longword) :
    Unchanged (registerWrites vc) s (s.setLow vc i x) where
  vreg := fun n j h => by
    rw [State.elem_setLow, if_neg]
    rintro ⟨rfl, _⟩
    exact h rfl
  vlr := fun _ => rfl
  vcr := fun _ => rfl
  vmr := fun _ => rfl
  mem := fun _ _ => rfl
  scalar := fun _ _ => rfl
  draws := fun h => by cases h
  pc := rfl
  text := rfl
  textBase := rfl
  access := rfl
  devices := rfl

theorem Unchanged.setMaskBit (s : State) (i : ElemIx) (b : Bool) :
    Unchanged { vmr := true } s (s.setMaskBit i b) where
  vreg := fun _ _ _ => rfl
  vlr := fun _ => rfl
  vcr := fun _ => rfl
  vmr := fun h => by cases h
  mem := fun _ _ => rfl
  scalar := fun _ _ => rfl
  draws := fun _ => rfl
  pc := rfl
  text := rfl
  textBase := rfl
  access := rfl
  devices := rfl

theorem Unchanged.writeElem (s : State) (w : MemWidth) (a : Address) (e : Element) :
    Unchanged { mem := true } s (s.writeElem w a e) where
  vreg := fun n i _ => by simp [State.elem]
  vlr := fun _ => by simp
  vcr := fun _ => by simp
  vmr := fun _ => by simp
  mem := fun h => by cases h
  scalar := fun n _ => by simp [State.reg]
  draws := fun _ => by simp
  pc := by simp
  text := by simp
  textBase := by simp
  access := by simp
  devices := by simp

/-! ### Register loops -/

/-- An element's result is stored. -/
def ElemRes.Stores : ElemRes → Prop
  | .low _ => True
  | .whole _ => True
  | .raise _ => False
  | .refuse _ => False

/-- An element's result stands in element `i` of register `vc`. -/
def ElemRes.Holds (s t : State) (vc : VReg) (i : ElemIx) : ElemRes → Prop
  | .low x => LowResult s t vc i x
  | .whole e => t.elem vc i = e
  | .raise _ => False
  | .refuse _ => False

theorem ElemRes.holds_datum {s t : State} {vc : VReg} {i : ElemIx} (ty : DType) (x : BitVec ty.width) :
    (ElemRes.datum ty x).Holds s t vc i ↔ DatumResult s t vc i ty x := by
  cases ty <;> rfl

theorem ElemRes.stores_datum (ty : DType) (x : BitVec ty.width) : (ElemRes.datum ty x).Stores := by
  cases ty <;> trivial

/-- The state after the elements `is` of a register loop that completes. -/
structure RegisterDone (sel : ElemIx → Bool) (vc : VReg) (f : ElemIx → (VReg → Element) → ElemRes)
    (is : List ElemIx) (s t : State) : Prop where
  frame : Unchanged (registerWrites vc) s t
  draws : s.draws ≤ t.draws
  result : ∀ i ∈ is, sel i = true → (f i fun n => s.elem n i).Holds s t vc i
  other : ∀ i, ¬ (i ∈ is ∧ sel i = true) → t.elem vc i = s.elem vc i

theorem registerElem_skip {sel : ElemIx → Bool} {vc : VReg} {f : ElemIx → (VReg → Element) → ElemRes}
    {i : ElemIx} {s : State} (h : sel i = false) : registerElem sel vc f i s = .next s := by
  simp [registerElem, h]

/-- One processed element that stores its result. -/
theorem registerElem_stores {sel : ElemIx → Bool} {vc : VReg} {f : ElemIx → (VReg → Element) → ElemRes}
    {i : ElemIx} {s : State} (h : sel i = true) (st : (f i fun n => s.elem n i).Stores) :
    ∃ t, registerElem sel vc f i s = .next t ∧ Unchanged (registerWrites vc) s t ∧ s.draws ≤ t.draws ∧
      (f i fun n => s.elem n i).Holds s t vc i ∧ ∀ n j, j ≠ i → t.elem n j = s.elem n j := by
  simp only [registerElem, h, if_true]
  cases hf : f i fun n => s.elem n i with
  | low x =>
    refine ⟨_, rfl, Unchanged.setLow s vc i x, by simp, ⟨?_, s.draws, le_refl _, by simp, ?_⟩, ?_⟩
    · simp [State.elem_setLow]
    · simp [State.elem_setLow]
    · intro n j hj
      simp [State.elem_setLow, hj]
  | whole e =>
    refine ⟨_, rfl, Unchanged.setElem s vc i e, by simp, ?_, ?_⟩
    · simp [ElemRes.Holds, State.elem_setElem]
    · intro n j hj
      simp [State.elem_setElem, hj]
  | raise e => rw [hf] at st; exact st.elim
  | refuse r => rw [hf] at st; exact st.elim

theorem ElemRes.Holds.later {s u t : State} {vc : VReg} {i : ElemIx} {r : ElemRes} (h : r.Holds s u vc i)
    (e : t.elem vc i = u.elem vc i) (d : u.draws ≤ t.draws) : r.Holds s t vc i := by
  cases r with
  | low x =>
    obtain ⟨h1, k, h2, h3, h4⟩ := h
    exact ⟨by rw [e]; exact h1, k, h2, by omega, by rw [e]; exact h4⟩
  | whole x => exact e.trans h
  | raise _ => exact h
  | refuse _ => exact h

theorem ElemRes.Holds.earlier {s u t : State} {vc : VReg} {i : ElemIx} {r : ElemRes} (h : r.Holds u t vc i)
    (d : s.draws ≤ u.draws) : r.Holds s t vc i := by
  cases r with
  | low x =>
    obtain ⟨h1, k, h2, h3, h4⟩ := h
    exact ⟨h1, k, by omega, h3, h4⟩
  | whole x => exact h
  | raise _ => exact h
  | refuse _ => exact h

/-- What the elements `is` of a register loop can do: all results stored, or a stop at the first element that stops. -/
theorem registerElems_cases (sel : ElemIx → Bool) (vc : VReg) (f : ElemIx → (VReg → Element) → ElemRes)
    (is : List ElemIx) (sorted : is.Pairwise (· < ·)) (s : State) :
    (∃ t, forElements (registerElem sel vc f) is s = .next t ∧ RegisterDone sel vc f is s t) ∨
    (∃ k e left, k ∈ is ∧ sel k = true ∧ (f k fun n => s.elem n k) = .raise e ∧
      (∀ i ∈ is, i < k → sel i = true → (f i fun n => s.elem n i).Stores) ∧
      forElements (registerElem sel vc f) is s = .fault (.raised e k left)) ∨
    (∃ k r, k ∈ is ∧ sel k = true ∧ (f k fun n => s.elem n k) = .refuse r ∧
      (∀ i ∈ is, i < k → sel i = true → (f i fun n => s.elem n i).Stores) ∧
      forElements (registerElem sel vc f) is s = .refused r) := by
  induction is generalizing s with
  | nil =>
    refine .inl ⟨s, rfl, Unchanged.refl _ s, le_refl _, ?_, fun _ _ => rfl⟩
    intro i hi
    cases hi
  | cons i is ih =>
    rw [List.pairwise_cons] at sorted
    obtain ⟨lt, sorted⟩ := sorted
    by_cases hs : sel i = true
    · by_cases st : (f i fun n => s.elem n i).Stores
      · obtain ⟨u, hu, fr, dr, res, oth⟩ := registerElem_stores (vc := vc) hs st
        have same : ∀ j ∈ is, (fun n => u.elem n j) = fun n => s.elem n j := fun j hj =>
          funext fun n => oth n j (ne_of_gt (lt j hj))
        have notin : i ∉ is := fun h => lt_irrefl i (lt i h)
        simp only [forElements, hu]
        rcases ih sorted u with ⟨t, ht, d⟩ | ⟨k, e, left, hk, sk, fk, low, ht⟩ | ⟨k, r, hk, sk, fk, low, ht⟩
        · refine .inl ⟨t, ht, fr.trans d.frame, dr.trans d.draws, ?_, ?_⟩
          · intro j hj sj
            rcases List.mem_cons.1 hj with rfl | hj
            · exact res.later (d.other j fun h => notin h.1) d.draws
            · have := d.result j hj sj
              rw [same j hj] at this
              exact this.earlier dr
          · intro j hj
            rw [d.other j fun h => hj ⟨List.mem_cons_of_mem _ h.1, h.2⟩]
            apply oth
            rintro rfl
            exact hj ⟨List.mem_cons_self, hs⟩
        · refine .inr (.inl ⟨k, e, left, List.mem_cons_of_mem _ hk, sk, ?_, ?_, ht⟩)
          · rw [← fk, same k hk]
          · intro j hj jk sj
            rcases List.mem_cons.1 hj with rfl | hj
            · exact st
            · rw [← same j hj]; exact low j hj jk sj
        · refine .inr (.inr ⟨k, r, List.mem_cons_of_mem _ hk, sk, ?_, ?_, ht⟩)
          · rw [← fk, same k hk]
          · intro j hj jk sj
            rcases List.mem_cons.1 hj with rfl | hj
            · exact st
            · rw [← same j hj]; exact low j hj jk sj
      · have none_below : ∀ j ∈ i :: is, j < i → sel j = true → (f j fun n => s.elem n j).Stores := by
          intro j hj ji
          rcases List.mem_cons.1 hj with rfl | hj
          · exact (lt_irrefl _ ji).elim
          · exact (lt_asymm ji (lt j hj)).elim
        cases hf : f i fun n => s.elem n i with
        | low x => rw [hf] at st; exact (st trivial).elim
        | whole x => rw [hf] at st; exact (st trivial).elim
        | raise e =>
          refine .inr (.inl ⟨i, e, s, List.mem_cons_self, hs, hf, none_below, ?_⟩)
          simp [forElements, registerElem, hs, hf, raise]
        | refuse r =>
          refine .inr (.inr ⟨i, r, List.mem_cons_self, hs, hf, none_below, ?_⟩)
          simp [forElements, registerElem, hs, hf]
    · have hs' : sel i = false := by simpa using hs
      simp only [forElements, registerElem_skip hs']
      rcases ih sorted s with ⟨t, ht, d⟩ | ⟨k, e, left, hk, sk, fk, low, ht⟩ | ⟨k, r, hk, sk, fk, low, ht⟩
      · refine .inl ⟨t, ht, d.frame, d.draws, ?_, ?_⟩
        · intro j hj sj
          rcases List.mem_cons.1 hj with rfl | hj
          · exact (hs sj).elim
          · exact d.result j hj sj
        · intro j hj
          exact d.other j fun h => hj ⟨List.mem_cons_of_mem _ h.1, h.2⟩
      · refine .inr (.inl ⟨k, e, left, List.mem_cons_of_mem _ hk, sk, fk, ?_, ht⟩)
        intro j hj jk sj
        rcases List.mem_cons.1 hj with rfl | hj
        · exact (hs sj).elim
        · exact low j hj jk sj
      · refine .inr (.inr ⟨k, r, List.mem_cons_of_mem _ hk, sk, fk, ?_, ht⟩)
        intro j hj jk sj
        rcases List.mem_cons.1 hj with rfl | hj
        · exact (hs sj).elim
        · exact low j hj jk sj

/-- What a register loop can do. -/
theorem registerLoop_cases (sel : ElemIx → Bool) (vc : VReg) (f : ElemIx → (VReg → Element) → ElemRes) (s : State) :
    (∃ t, registerLoop sel vc f s = .next t ∧ RegisterDone sel vc f s.elements s t) ∨
    (∃ k e left, k ∈ s.elements ∧ sel k = true ∧ (f k fun n => s.elem n k) = .raise e ∧
      (∀ i ∈ s.elements, i < k → sel i = true → (f i fun n => s.elem n i).Stores) ∧
      registerLoop sel vc f s = .fault (.raised e k left)) ∨
    (∃ k r, k ∈ s.elements ∧ sel k = true ∧ (f k fun n => s.elem n k) = .refuse r ∧
      (∀ i ∈ s.elements, i < k → sel i = true → (f i fun n => s.elem n i).Stores) ∧
      registerLoop sel vc f s = .refused r) :=
  registerElems_cases sel vc f s.elements s.elements_sorted s

/-- A register loop whose processed elements all store a result completes. -/
theorem registerLoop_completes {sel : ElemIx → Bool} {vc : VReg} {f : ElemIx → (VReg → Element) → ElemRes} {s : State}
    (h : ∀ i ∈ s.elements, sel i = true → (f i fun n => s.elem n i).Stores) :
    ∃ t, registerLoop sel vc f s = .next t ∧ RegisterDone sel vc f s.elements s t := by
  rcases registerLoop_cases sel vc f s with d | ⟨k, e, left, hk, sk, fk, -, -⟩ | ⟨k, r, hk, sk, fk, -, -⟩
  · exact d
  · have := h k hk sk; rw [fk] at this; exact this.elim
  · have := h k hk sk; rw [fk] at this; exact this.elim

/-- A register loop stops with an exception at the first processed element that stores no result, if that element
raises. -/
theorem registerLoop_raises {sel : ElemIx → Bool} {vc : VReg} {f : ElemIx → (VReg → Element) → ElemRes} {s : State}
    {k : ElemIx} {e : Exc} (hk : k ∈ s.elements) (sk : sel k = true) (fk : (f k fun n => s.elem n k) = .raise e)
    (low : ∀ i ∈ s.elements, i < k → sel i = true → (f i fun n => s.elem n i).Stores) :
    ∃ left, registerLoop sel vc f s = .fault (.raised e k left) := by
  rcases registerLoop_cases sel vc f s with ⟨t, -, d⟩ | ⟨k', e', left, hk', sk', fk', low', h⟩ | ⟨k', r, hk', sk', fk', low', -⟩
  · have := d.result k hk sk; rw [fk] at this; exact this.elim
  · rcases lt_trichotomy k k' with l | rfl | l
    · have := low' k hk l sk; rw [fk] at this; exact this.elim
    · rw [fk] at fk'
      cases fk'
      exact ⟨left, h⟩
    · have := low k' hk' l sk'; rw [fk'] at this; exact this.elim
  · rcases lt_trichotomy k k' with l | rfl | l
    · have := low' k hk l sk; rw [fk] at this; exact this.elim
    · rw [fk] at fk'; cases fk'
    · have := low k' hk' l sk'; rw [fk'] at this; exact this.elim

/-- A register loop is refused at the first processed element that stores no result, if that element is refused. -/
theorem registerLoop_refuses {sel : ElemIx → Bool} {vc : VReg} {f : ElemIx → (VReg → Element) → ElemRes} {s : State}
    {k : ElemIx} {r : Refusal} (hk : k ∈ s.elements) (sk : sel k = true)
    (fk : (f k fun n => s.elem n k) = .refuse r)
    (low : ∀ i ∈ s.elements, i < k → sel i = true → (f i fun n => s.elem n i).Stores) :
    registerLoop sel vc f s = .refused r := by
  rcases registerLoop_cases sel vc f s with ⟨t, -, d⟩ | ⟨k', e', left, hk', sk', fk', low', -⟩ | ⟨k', r', hk', sk', fk', low', h⟩
  · have := d.result k hk sk; rw [fk] at this; exact this.elim
  · rcases lt_trichotomy k k' with l | rfl | l
    · have := low' k hk l sk; rw [fk] at this; exact this.elim
    · rw [fk] at fk'; cases fk'
    · have := low k' hk' l sk'; rw [fk'] at this; exact this.elim
  · rcases lt_trichotomy k k' with l | rfl | l
    · have := low' k hk l sk; rw [fk] at this; exact this.elim
    · rw [fk] at fk'
      cases fk'
      exact h
    · have := low k' hk' l sk'; rw [fk'] at this; exact this.elim

/-! ### Compare loops -/

/-- A compare's element has an outcome. -/
def CmpRes.Bits : CmpRes → Prop
  | .bit _ => True
  | .raise _ => False

/-- The state after the elements `is` of a compare loop that completes. -/
structure CompareDone (sel : ElemIx → Bool) (f : (VReg → Element) → CmpRes) (is : List ElemIx) (s t : State) :
    Prop where
  frame : Unchanged { vmr := true } s t
  result : ∀ i ∈ is, sel i = true → (f fun n => s.elem n i) = .bit (t.maskBit i)
  other : ∀ i, ¬ (i ∈ is ∧ sel i = true) → t.maskBit i = s.maskBit i

/-- What the elements `is` of a compare loop can do. -/
theorem compareElems_cases (sel : ElemIx → Bool) (f : (VReg → Element) → CmpRes)
    (is : List ElemIx) (sorted : is.Pairwise (· < ·)) (s : State) :
    (∃ t, forElements (compareElem sel f) is s = .next t ∧ CompareDone sel f is s t) ∨
    (∃ k e left, k ∈ is ∧ sel k = true ∧ (f fun n => s.elem n k) = .raise e ∧
      (∀ i ∈ is, i < k → sel i = true → (f fun n => s.elem n i).Bits) ∧
      forElements (compareElem sel f) is s = .fault (.raised e k left)) := by
  induction is generalizing s with
  | nil =>
    refine .inl ⟨s, rfl, Unchanged.refl _ s, ?_, fun _ _ => rfl⟩
    intro i hi
    cases hi
  | cons i is ih =>
    rw [List.pairwise_cons] at sorted
    obtain ⟨lt, sorted⟩ := sorted
    have notin : i ∉ is := fun h => lt_irrefl i (lt i h)
    by_cases hs : sel i = true
    · cases hf : f fun n => s.elem n i with
      | raise e =>
        refine .inr ⟨i, e, s, List.mem_cons_self, hs, hf, ?_, ?_⟩
        · intro j hj ji
          rcases List.mem_cons.1 hj with rfl | hj
          · exact (lt_irrefl _ ji).elim
          · exact (lt_asymm ji (lt j hj)).elim
        · simp [forElements, compareElem, hs, hf, raise]
      | bit b =>
        have step1 : compareElem sel f i s = .next (s.setMaskBit i b) := by simp [compareElem, hs, hf]
        simp only [forElements, step1]
        rcases ih sorted (s.setMaskBit i b) with ⟨t, ht, d⟩ | ⟨k, e, left, hk, sk, fk, low, ht⟩
        · refine .inl ⟨t, ht, (Unchanged.setMaskBit s i b).trans d.frame, ?_, ?_⟩
          · intro j hj sj
            rcases List.mem_cons.1 hj with rfl | hj
            · rw [hf, d.other j fun h => notin h.1, State.maskBit_setMaskBit, if_pos rfl]
            · exact d.result j hj sj
          · intro j hj
            rw [d.other j fun h => hj ⟨List.mem_cons_of_mem _ h.1, h.2⟩, State.maskBit_setMaskBit, if_neg]
            rintro rfl
            exact hj ⟨List.mem_cons_self, hs⟩
        · refine .inr ⟨k, e, left, List.mem_cons_of_mem _ hk, sk, fk, ?_, ht⟩
          intro j hj jk sj
          rcases List.mem_cons.1 hj with rfl | hj
          · rw [hf]; trivial
          · exact low j hj jk sj
    · have hs' : sel i = false := by simpa using hs
      have step1 : compareElem sel f i s = .next s := by simp [compareElem, hs']
      simp only [forElements, step1]
      rcases ih sorted s with ⟨t, ht, d⟩ | ⟨k, e, left, hk, sk, fk, low, ht⟩
      · refine .inl ⟨t, ht, d.frame, ?_, ?_⟩
        · intro j hj sj
          rcases List.mem_cons.1 hj with rfl | hj
          · exact (hs sj).elim
          · exact d.result j hj sj
        · intro j hj
          exact d.other j fun h => hj ⟨List.mem_cons_of_mem _ h.1, h.2⟩
      · refine .inr ⟨k, e, left, List.mem_cons_of_mem _ hk, sk, fk, ?_, ht⟩
        intro j hj jk sj
        rcases List.mem_cons.1 hj with rfl | hj
        · exact (hs sj).elim
        · exact low j hj jk sj

/-- What a compare loop can do. -/
theorem compareLoop_cases (sel : ElemIx → Bool) (f : (VReg → Element) → CmpRes) (s : State) :
    (∃ t, compareLoop sel f s = .next t ∧ CompareDone sel f s.elements s t) ∨
    (∃ k e left, k ∈ s.elements ∧ sel k = true ∧ (f fun n => s.elem n k) = .raise e ∧
      (∀ i ∈ s.elements, i < k → sel i = true → (f fun n => s.elem n i).Bits) ∧
      compareLoop sel f s = .fault (.raised e k left)) :=
  compareElems_cases sel f s.elements s.elements_sorted s

/-- A compare loop whose processed elements all have an outcome completes. -/
theorem compareLoop_completes {sel : ElemIx → Bool} {f : (VReg → Element) → CmpRes} {s : State}
    (h : ∀ i ∈ s.elements, sel i = true → (f fun n => s.elem n i).Bits) :
    ∃ t, compareLoop sel f s = .next t ∧ CompareDone sel f s.elements s t := by
  rcases compareLoop_cases sel f s with d | ⟨k, e, left, hk, sk, fk, -, -⟩
  · exact d
  · have := h k hk sk; rw [fk] at this; exact this.elim

/-- A compare loop stops at the first processed element that raises. -/
theorem compareLoop_raises {sel : ElemIx → Bool} {f : (VReg → Element) → CmpRes} {s : State}
    {k : ElemIx} {e : Exc} (hk : k ∈ s.elements) (sk : sel k = true) (fk : (f fun n => s.elem n k) = .raise e)
    (low : ∀ i ∈ s.elements, i < k → sel i = true → (f fun n => s.elem n i).Bits) :
    ∃ left, compareLoop sel f s = .fault (.raised e k left) := by
  rcases compareLoop_cases sel f s with ⟨t, -, d⟩ | ⟨k', e', left, hk', sk', fk', low', h⟩
  · have := d.result k hk sk; rw [fk] at this; cases this
  · rcases lt_trichotomy k k' with l | rfl | l
    · have := low' k hk l sk; rw [fk] at this; exact this.elim
    · rw [fk] at fk'
      cases fk'
      exact ⟨left, h⟩
    · have := low k' hk' l sk'; rw [fk'] at this; exact this.elim

end Sys2Proof.Machine
end

