-- ==== Sys2Proof/Laws/Store.lean ====
section
/-! SUPPORT. What a store loop can do, and the memory it leaves. -/

namespace Sys2Proof.Machine

/-! ### One element's bytes -/

theorem offset_ne {j k : Nat} (hj : j < 8) (hk : k < 8) (ne : j ≠ k) (a : Address) :
    a + BitVec.ofNat 32 j ≠ a + BitVec.ofNat 32 k := by
  intro h
  have := congrArg BitVec.toNat (add_left_cancel h)
  simp only [BitVec.toNat_ofNat] at this
  omega

theorem add_four (a : Address) (k : Nat) : a + 4 + BitVec.ofNat 32 k = a + BitVec.ofNat 32 (4 + k) := by
  rw [BitVec.add_assoc]
  congr 1
  apply BitVec.eq_of_toNat_eq
  simp

theorem byteOf_q_low (e : Element) {k : Nat} (hk : k < 4) : byteOf e.q k = byteOf e.lo k := by
  apply BitVec.eq_of_getLsbD_eq
  intro i hi
  simp only [byteOf, Element.q, BitVec.getLsbD_extractLsb', BitVec.getLsbD_append]
  have : 8 * k + i < 32 := by omega
  simp [hi, this]

theorem byteOf_q_high (e : Element) {k : Nat} : byteOf e.q (4 + k) = byteOf e.hi k := by
  apply BitVec.eq_of_getLsbD_eq
  intro i hi
  simp only [byteOf, Element.q, BitVec.getLsbD_extractLsb', BitVec.getLsbD_append]
  have h1 : ¬ 8 * (4 + k) + i < 32 := by omega
  have h2 : 8 * (4 + k) + i - 32 = 8 * k + i := by omega
  simp [hi, h1, h2]

/-- A stored element's bytes (R51, R52). -/
theorem State.byte_writeElem_at (s : State) (h : Memory.wf s.mem = true) (w : MemWidth) (a : Address) (e : Element)
    (k : Nat) (hk : k < w.bytes) : (s.writeElem w a e).byte (a + BitVec.ofNat 32 k) = storedByte w e k := by
  cases w with
  | long => exact State.byte_writeL_at s h a e.lo k hk
  | quad =>
    have hk8 : k < 8 := hk
    simp only [State.writeElem, State.writeQ, storedByte]
    by_cases l : k < 4
    · rw [State.byte_writeL_off _ (State.wf_writeL h a e.lo), State.byte_writeL_at s h a e.lo k l, byteOf_q_low e l]
      intro j hj
      rw [add_four]
      exact offset_ne hk8 (by omega) (by omega) a
    · obtain ⟨j, rfl⟩ : ∃ j, k = 4 + j := ⟨k - 4, by omega⟩
      rw [← add_four, State.byte_writeL_at _ (State.wf_writeL h a e.lo) _ _ j (by omega), byteOf_q_high]

/-- Every byte that a stored element does not cover is unchanged. -/
theorem State.byte_writeElem_off (s : State) (h : Memory.wf s.mem = true) (w : MemWidth) (a b : Address) (e : Element)
    (hb : ¬ Covers a w.bytes b) : (s.writeElem w a e).byte b = s.byte b := by
  have off : ∀ k, k < w.bytes → b ≠ a + BitVec.ofNat 32 k := fun k hk e => hb ⟨k, hk, e⟩
  cases w with
  | long => exact State.byte_writeL_off s h a b e.lo off
  | quad =>
    simp only [State.writeElem, State.writeQ]
    rw [State.byte_writeL_off _ (State.wf_writeL h a e.lo), State.byte_writeL_off s h]
    · intro k hk
      exact off k (by have : MemWidth.quad.bytes = 8 := rfl; omega)
    · intro k hk
      rw [add_four]
      exact off (4 + k) (by have : MemWidth.quad.bytes = 8 := rfl; omega)

/-! ### Checks depend on the run's parameters alone -/

theorem accessCheck_congr {s t : State} (h : t.access = s.access) (a : Address) (n : Nat) (k : AccessKind) :
    accessCheck t a n k = accessCheck s a n k := by
  simp [accessCheck, h]

theorem inDeviceSpace_congr {s t : State} (h : t.devices = s.devices) (a : Address) (n : Nat) :
    inDeviceSpace t a n = inDeviceSpace s a n := by
  simp [inDeviceSpace, h]

theorem overlapsText_congr {s t : State} (h : t.text = s.text) (g : t.textBase = s.textBase) (a : Address) (n : Nat) :
    overlapsText t a n = overlapsText s a n := by
  simp [overlapsText, inText, h, g]

theorem checkStore_congr {s t : State} {w : Writes} (h : Unchanged w s t) (a : Address) (n : Nat) :
    checkStore t a n = checkStore s a n := by
  simp only [checkStore, accessCheck_congr h.access, inDeviceSpace_congr h.devices,
    overlapsText_congr h.text h.textBase]

/-- An access check never answers `modify` to a read (R60, R309). -/
theorem accessCheck_read (s : State) (a : Address) (n : Nat) (mi : Bool) : accessCheck s a n (.read mi) ≠ .modify := by
  intro h
  unfold accessCheck at h
  split at h
  · next u hu =>
    have := List.find?_some hu
    simp [AccessRule.covers, h] at this
  · cases h

/-- What the tests before a load answer (R309). -/
theorem checkLoad_ok (s : State) (w : MemWidth) (a : Address) (mi : Bool) :
    checkLoad s a w.bytes mi = .ok ↔ Loadable w mi s a := by
  unfold checkLoad Loadable
  by_cases h : a.toNat % w.bytes = 0
  · have := accessCheck_read s a w.bytes mi
    cases hc : accessCheck s a w.bytes (.read mi) <;> simp_all
  · simp [h]

/-- What the tests before a store answer (R309). -/
theorem checkStore_ok (s : State) (w : MemWidth) (a : Address) :
    checkStore s a w.bytes = .ok ↔ Storable w s a := by
  unfold checkStore Storable
  by_cases h : a.toNat % w.bytes = 0
  · cases hc : accessCheck s a w.bytes .write <;> simp [h]
    by_cases hd : inDeviceSpace s a w.bytes = true
    · simp [hd]
    · by_cases ho : overlapsText s a w.bytes = true <;> simp_all
  · simp [h]

/-- The exceptions of a load (R309, R402). -/
theorem checkLoad_raise {s : State} {a : Address} {n : Nat} {mi : Bool} {e : Exc} (h : checkLoad s a n mi = .raise e) :
    e = .vectorAlignment a ∨ e = .accessControlViolation a ∨ e = .translationNotValid a := by
  unfold checkLoad at h
  split at h
  · cases h; exact .inl rfl
  · split at h
    · cases h; exact .inr (.inl rfl)
    · cases h; exact .inr (.inr rfl)
    · split at h <;> cases h

/-- The exceptions of a store (R309, R402). -/
theorem checkStore_raise {s : State} {a : Address} {n : Nat} {e : Exc} (h : checkStore s a n = .raise e) :
    e = .vectorAlignment a ∨ e = .accessControlViolation a ∨ e = .translationNotValid a ∨ e = .modify a := by
  unfold checkStore at h
  split at h
  · cases h; exact .inl rfl
  · split at h
    · cases h; exact .inr (.inl rfl)
    · cases h; exact .inr (.inr (.inl rfl))
    · cases h; exact .inr (.inr (.inr rfl))
    · split at h
      · cases h
      · split at h <;> cases h

/-- The refusals of a load: device space alone (R58). -/
theorem checkLoad_refuse {s : State} {a : Address} {n : Nat} {mi : Bool} {r : Refusal}
    (h : checkLoad s a n mi = .refuse r) : r = .deviceSpace a := by
  unfold checkLoad at h
  split at h
  · cases h
  · split at h
    · cases h
    · cases h
    · split at h
      · cases h; rfl
      · cases h

/-- The refusals of a store: device space and the program text (R58, R64). -/
theorem checkStore_refuse {s : State} {a : Address} {n : Nat} {r : Refusal}
    (h : checkStore s a n = .refuse r) : r = .deviceSpace a ∨ r = .storeToProgramText a := by
  unfold checkStore at h
  split at h
  · cases h
  · split at h
    · cases h
    · cases h
    · cases h
    · split at h
      · cases h; exact .inl rfl
      · split at h
        · cases h; exact .inr rfl
        · cases h

/-! ### Store loops -/

/-- The state after the elements `is` of a store loop that completes. -/
structure StoreDone (sel : ElemIx → Bool) (w : MemWidth) (addr : ElemIx → Address) (vc : VReg)
    (is : List ElemIx) (s t : State) : Prop where
  frame : Unchanged { mem := true } s t
  wf : Memory.wf s.mem = true → Memory.wf t.mem = true
  checked : ∀ i ∈ is, sel i = true → checkStore s (addr i) w.bytes = .ok
  off : Memory.wf s.mem = true → ∀ b, (∀ i ∈ is, sel i = true → ¬ Covers (addr i) w.bytes b) → t.byte b = s.byte b
  at_last : Memory.wf s.mem = true → ∀ i ∈ is, sel i = true → ∀ k, k < w.bytes →
    (∀ j ∈ is, i < j → sel j = true → ¬ Covers (addr j) w.bytes (addr i + BitVec.ofNat 32 k)) →
    t.byte (addr i + BitVec.ofNat 32 k) = storedByte w (s.elem vc i) k

/-- What the elements `is` of a store loop can do. -/
theorem storeElems_cases (sel : ElemIx → Bool) (w : MemWidth) (addr : ElemIx → Address) (vc : VReg)
    (is : List ElemIx) (sorted : is.Pairwise (· < ·)) (s : State) :
    (∃ t, forElements (storeLoopElem sel w addr vc) is s = .next t ∧ StoreDone sel w addr vc is s t) ∨
    (∃ k e left, k ∈ is ∧ sel k = true ∧ checkStore s (addr k) w.bytes = .raise e ∧
      (∀ i ∈ is, i < k → sel i = true → checkStore s (addr i) w.bytes = .ok) ∧
      forElements (storeLoopElem sel w addr vc) is s = .fault (.raised e k left)) ∨
    (∃ k r, k ∈ is ∧ sel k = true ∧ checkStore s (addr k) w.bytes = .refuse r ∧
      (∀ i ∈ is, i < k → sel i = true → checkStore s (addr i) w.bytes = .ok) ∧
      forElements (storeLoopElem sel w addr vc) is s = .refused r) := by
  induction is generalizing s with
  | nil =>
    refine .inl ⟨s, rfl, Unchanged.refl _ s, id, ?_, fun _ _ _ => rfl, ?_⟩
    · intro i hi; cases hi
    · intro _ i hi; cases hi
  | cons i is ih =>
    rw [List.pairwise_cons] at sorted
    obtain ⟨lt, sorted⟩ := sorted
    have below : ∀ j ∈ i :: is, j < i → sel j = true → checkStore s (addr j) w.bytes = .ok := by
      intro j hj ji
      rcases List.mem_cons.1 hj with rfl | hj
      · exact (lt_irrefl _ ji).elim
      · exact (lt_asymm ji (lt j hj)).elim
    by_cases hs : sel i = true
    · cases hc : checkStore s (addr i) w.bytes with
      | raise e =>
        refine .inr (.inl ⟨i, e, s, List.mem_cons_self, hs, hc, below, ?_⟩)
        simp [forElements, storeLoopElem, storeElem, hs, hc, raise]
      | refuse r =>
        refine .inr (.inr ⟨i, r, List.mem_cons_self, hs, hc, below, ?_⟩)
        simp [forElements, storeLoopElem, storeElem, hs, hc]
      | ok =>
        have step1 : storeLoopElem sel w addr vc i s = .next (s.writeElem w (addr i) (s.elem vc i)) := by
          simp [storeLoopElem, storeElem, hs, hc]
        have fr := Unchanged.writeElem s w (addr i) (s.elem vc i)
        have same : ∀ j, (s.writeElem w (addr i) (s.elem vc i)).elem vc j = s.elem vc j := fun j => by
          simp [State.elem]
        simp only [forElements, step1]
        rcases ih sorted (s.writeElem w (addr i) (s.elem vc i)) with
          ⟨t, ht, d⟩ | ⟨k, e, left, hk, sk, fk, low, ht⟩ | ⟨k, r, hk, sk, fk, low, ht⟩
        · refine .inl ⟨t, ht, fr.trans d.frame, fun h => d.wf (State.wf_writeElem h w _ _), ?_, ?_, ?_⟩
          · intro j hj sj
            rcases List.mem_cons.1 hj with rfl | hj
            · exact hc
            · rw [← checkStore_congr fr]; exact d.checked j hj sj
          · intro h b hb
            rw [d.off (State.wf_writeElem h w _ _) b fun j hj => hb j (List.mem_cons_of_mem _ hj),
              State.byte_writeElem_off s h w _ b _ (hb i List.mem_cons_self hs)]
          · intro h j hj sj k hk hh
            rcases List.mem_cons.1 hj with rfl | hj
            · rw [d.off (State.wf_writeElem h w _ _), State.byte_writeElem_at s h w _ _ k hk]
              intro m hm sm
              exact hh m (List.mem_cons_of_mem _ hm) (lt m hm) sm
            · rw [d.at_last (State.wf_writeElem h w _ _) j hj sj k hk, same]
              intro m hm
              exact hh m (List.mem_cons_of_mem _ hm)
        · refine .inr (.inl ⟨k, e, left, List.mem_cons_of_mem _ hk, sk, ?_, ?_, ht⟩)
          · rw [← fk, checkStore_congr fr]
          · intro j hj jk sj
            rcases List.mem_cons.1 hj with rfl | hj
            · exact hc
            · rw [← checkStore_congr fr]; exact low j hj jk sj
        · refine .inr (.inr ⟨k, r, List.mem_cons_of_mem _ hk, sk, ?_, ?_, ht⟩)
          · rw [← fk, checkStore_congr fr]
          · intro j hj jk sj
            rcases List.mem_cons.1 hj with rfl | hj
            · exact hc
            · rw [← checkStore_congr fr]; exact low j hj jk sj
    · have hs' : sel i = false := by simpa using hs
      have step1 : storeLoopElem sel w addr vc i s = .next s := by simp [storeLoopElem, hs']
      simp only [forElements, step1]
      rcases ih sorted s with ⟨t, ht, d⟩ | ⟨k, e, left, hk, sk, fk, low, ht⟩ | ⟨k, r, hk, sk, fk, low, ht⟩
      · refine .inl ⟨t, ht, d.frame, d.wf, ?_, ?_, ?_⟩
        · intro j hj sj
          rcases List.mem_cons.1 hj with rfl | hj
          · exact (hs sj).elim
          · exact d.checked j hj sj
        · intro h b hb
          exact d.off h b fun j hj => hb j (List.mem_cons_of_mem _ hj)
        · intro h j hj sj k hk hh
          rcases List.mem_cons.1 hj with rfl | hj
          · exact (hs sj).elim
          · exact d.at_last h j hj sj k hk fun m hm => hh m (List.mem_cons_of_mem _ hm)
      · refine .inr (.inl ⟨k, e, left, List.mem_cons_of_mem _ hk, sk, fk, ?_, ht⟩)
        intro j hj jk sj
        rcases List.mem_cons.1 hj with rfl | hj
        · exact (hs sj).elim
        · exact low j hj jk sj
      · refine .inr (.inr ⟨k, r, List.mem_cons_of_mem _ hk, sk, fk, ?_, ht⟩)
        intro j hj jk sj
        rcases List.mem_cons.1 hj with rfl | hj
        · exact (hs sj).elim
        · exact low j hj jk sj

/-- What a store loop can do. -/
theorem storeLoop_cases (sel : ElemIx → Bool) (w : MemWidth) (addr : ElemIx → Address) (vc : VReg) (s : State) :
    (∃ t, storeLoop sel w addr vc s = .next t ∧ StoreDone sel w addr vc s.elements s t) ∨
    (∃ k e left, k ∈ s.elements ∧ sel k = true ∧ checkStore s (addr k) w.bytes = .raise e ∧
      (∀ i ∈ s.elements, i < k → sel i = true → checkStore s (addr i) w.bytes = .ok) ∧
      storeLoop sel w addr vc s = .fault (.raised e k left)) ∨
    (∃ k r, k ∈ s.elements ∧ sel k = true ∧ checkStore s (addr k) w.bytes = .refuse r ∧
      (∀ i ∈ s.elements, i < k → sel i = true → checkStore s (addr i) w.bytes = .ok) ∧
      storeLoop sel w addr vc s = .refused r) :=
  storeElems_cases sel w addr vc s.elements s.elements_sorted s

/-- A store loop whose processed elements may all be stored completes. -/
theorem storeLoop_completes {sel : ElemIx → Bool} {w : MemWidth} {addr : ElemIx → Address} {vc : VReg} {s : State}
    (h : ∀ i ∈ s.elements, sel i = true → checkStore s (addr i) w.bytes = .ok) :
    ∃ t, storeLoop sel w addr vc s = .next t ∧ StoreDone sel w addr vc s.elements s t := by
  rcases storeLoop_cases sel w addr vc s with d | ⟨k, e, left, hk, sk, fk, -, -⟩ | ⟨k, r, hk, sk, fk, -, -⟩
  · exact d
  · have := h k hk sk; rw [fk] at this; cases this
  · have := h k hk sk; rw [fk] at this; cases this

/-- A store loop stops with an exception at the first processed element that may not be stored, if its check raises. -/
theorem storeLoop_raises {sel : ElemIx → Bool} {w : MemWidth} {addr : ElemIx → Address} {vc : VReg} {s : State}
    {k : ElemIx} {e : Exc} (hk : k ∈ s.elements) (sk : sel k = true) (fk : checkStore s (addr k) w.bytes = .raise e)
    (low : ∀ i ∈ s.elements, i < k → sel i = true → checkStore s (addr i) w.bytes = .ok) :
    ∃ left, storeLoop sel w addr vc s = .fault (.raised e k left) := by
  rcases storeLoop_cases sel w addr vc s with ⟨t, -, d⟩ | ⟨k', e', left, hk', sk', fk', low', h⟩ | ⟨k', r, hk', sk', fk', low', -⟩
  · have := d.checked k hk sk; rw [fk] at this; cases this
  · rcases lt_trichotomy k k' with l | rfl | l
    · have := low' k hk l sk; rw [fk] at this; cases this
    · rw [fk] at fk'
      cases fk'
      exact ⟨left, h⟩
    · have := low k' hk' l sk'; rw [fk'] at this; cases this
  · rcases lt_trichotomy k k' with l | rfl | l
    · have := low' k hk l sk; rw [fk] at this; cases this
    · rw [fk] at fk'; cases fk'
    · have := low k' hk' l sk'; rw [fk'] at this; cases this

/-- A store loop is refused at the first processed element that may not be stored, if its check refuses. -/
theorem storeLoop_refuses {sel : ElemIx → Bool} {w : MemWidth} {addr : ElemIx → Address} {vc : VReg} {s : State}
    {k : ElemIx} {r : Refusal} (hk : k ∈ s.elements) (sk : sel k = true)
    (fk : checkStore s (addr k) w.bytes = .refuse r)
    (low : ∀ i ∈ s.elements, i < k → sel i = true → checkStore s (addr i) w.bytes = .ok) :
    storeLoop sel w addr vc s = .refused r := by
  rcases storeLoop_cases sel w addr vc s with ⟨t, -, d⟩ | ⟨k', e', left, hk', sk', fk', low', -⟩ | ⟨k', r', hk', sk', fk', low', h⟩
  · have := d.checked k hk sk; rw [fk] at this; cases this
  · rcases lt_trichotomy k k' with l | rfl | l
    · have := low' k hk l sk; rw [fk] at this; cases this
    · rw [fk] at fk'; cases fk'
    · have := low k' hk' l sk'; rw [fk'] at this; cases this
  · rcases lt_trichotomy k k' with l | rfl | l
    · have := low' k hk l sk; rw [fk] at this; cases this
    · rw [fk] at fk'
      cases fk'
      exact h
    · have := low k' hk' l sk'; rw [fk'] at this; cases this

end Sys2Proof.Machine
end

