-- ==== Sys2Proof/Laws/Operands.lean ====
section
/-! SUPPORT. What evaluating operand specifiers can answer: values of static specifiers, and a state that differs in the
scalar registers alone. -/

namespace Sys2Proof.Machine

/-- A specifier that carries its value whole gives it and changes nothing. -/
theorem resolve_static {k : OperandKind} {sp : Spec} {v : OpVal} (h : staticVal k sp = some v) (s : State) (r15 : Longword) :
    resolve s r15 k sp = .next (v, s) := by
  unfold resolve; rw [h]

/-- Specifiers that carry their values whole give them and change nothing. -/
theorem resolveAll_static {ks : List OperandKind} {sps : List Specifier} {vs : List OpVal}
    (h : staticVals ks sps = some vs) (s : State) : resolveAll s ks sps = .next (vs, s) := by
  induction ks generalizing sps vs with
  | nil =>
    cases sps with
    | nil => cases h; rfl
    | cons sp sps => cases h
  | cons k ks ih =>
    cases sps with
    | nil => cases h
    | cons sp sps =>
      simp only [staticVals] at h
      split at h
      · next v vs' h1 h2 => cases h; simp [resolveAll, resolve_static h1, ih h2]
      · cases h

/-- A scalar read answers the value it is given and leaves the state. -/
theorem scalarRead_next {α : Type} {s : State} {a : Address} {n : Nat} {x : α} {p : α × State}
    (h : scalarRead s a n x = .next p) : p = (x, s) ∧ scalarAccess s a n (.read false) = .ok := by
  unfold scalarRead at h
  split at h
  · cases h
  · cases h
  · next h' => cases h; exact ⟨rfl, h'⟩

/-- A memory-mode specifier changes the scalar registers alone. -/
theorem memAddr_next {s : State} {r15 : Longword} {size : Nat} {m : MemMode} {p : Address × State}
    (h : memAddr s r15 size m = .next p) :
    ∃ r, p.2 = { s with r := r } := by
  induction m generalizing p <;> simp only [memAddr] at h
  case autoincDef n => obtain ⟨rfl, -⟩ := scalarRead_next h; exact State.setGeneral_eq _ _ _
  case dispDef n d => obtain ⟨rfl, -⟩ := scalarRead_next h; exact ⟨s.r, rfl⟩
  case indexed x m ih =>
    split at h
    · next hm => cases h; have hi := ih hm; exact hi
    · cases h
    · cases h
  all_goals (cases h; first | exact ⟨s.r, rfl⟩ | exact State.setGeneral_eq _ _ _)

/-- Reading the operand at an address changes nothing. -/
theorem memOperand_next {s : State} {k : OperandKind} {a : Address} {p : OpVal × State} (h : memOperand s k a = .next p) :
    p.2 = s := by
  cases k <;> simp only [memOperand] at h
  case ab => cases h; rfl
  case wl => cases h; rfl
  all_goals (obtain ⟨rfl, -⟩ := scalarRead_next h; rfl)

/-- Reading a register operand changes nothing. -/
theorem registerOperand_next {s : State} {r15 : Longword} {k : OperandKind} {n : GReg} {p : OpVal × State}
    (h : registerOperand s r15 k n = .next p) : p.2 = s := by
  cases k <;> simp only [registerOperand] at h
  case rq => split at h <;> cases h; rfl
  case ab => cases h
  all_goals (cases h; rfl)

/-- An operand specifier changes the scalar registers alone. -/
theorem resolve_next {s : State} {r15 : Longword} {k : OperandKind} {sp : Spec} {p : OpVal × State}
    (h : resolve s r15 k sp = .next p) :
    ∃ r, p.2 = { s with r := r } := by
  unfold resolve at h
  split at h
  · cases h; exact ⟨s.r, rfl⟩
  · split at h
    · exact ⟨s.r, registerOperand_next h⟩
    · split at h
      · next a s' hm =>
        obtain ⟨r, hr⟩ := memAddr_next hm
        exact ⟨r, (memOperand_next h).trans hr⟩
      · cases h
      · cases h
    · cases h

/-- Operand specifiers change the scalar registers alone. -/
theorem resolveAll_next {s : State} {ks : List OperandKind} {sps : List Specifier} {p : List OpVal × State}
    (h : resolveAll s ks sps = .next p) : ∃ r, p.2 = { s with r := r } := by
  induction ks generalizing s sps p with
  | nil => cases h; exact ⟨s.r, rfl⟩
  | cons k ks ih =>
    cases sps with
    | nil => cases h; exact ⟨s.r, rfl⟩
    | cons sp sps =>
      simp only [resolveAll] at h
      split at h
      · cases h
      · cases h
      · next v s' hr =>
        split at h
        · cases h
        · cases h
        · next vs s'' ha =>
          cases h
          obtain ⟨r, hr⟩ := resolve_next hr
          obtain ⟨r', hr'⟩ := ih ha
          simp only at hr hr'
          subst hr
          exact ⟨r', hr'⟩

/-- Reading an instruction's operands changes the scalar registers alone, and the instruction is what its format makes of
the values. -/
theorem resolveInstr_next {s : State} {raw : RawInstr} {i : Instr} {s' : State}
    (h : s.resolveInstr raw = .next (i, s')) :
    ∃ vs, resolveAll s raw.build.kinds raw.specs = .next (vs, s') ∧ raw.build.apply vs = some i ∧
      ∃ r, s' = { s with r := r } := by
  unfold State.resolveInstr at h
  split at h
  · cases h
  · cases h
  · next vs t ha =>
    split at h
    · cases h
    · next j hj =>
      cases h
      exact ⟨vs, ha, hj, resolveAll_next ha⟩

/-- What delivering an MFVP result can answer. -/
theorem writeDest_cases (s : State) (d : Dest) (x : Longword) :
    (∃ n, d = .reg n ∧ writeDest s d x = .next (s.setGeneral n x)) ∨
    ∃ a, d = .mem a ∧
      ((inDeviceSpace s a 4 = true ∧ writeDest s d x = .refused (.deviceSpace a)) ∨
       (inDeviceSpace s a 4 = false ∧ accessCheck s a 4 .write ≠ .ok ∧
          writeDest s d x = .fault (.scalarOperand a (accessCheck s a 4 .write))) ∨
       (scalarAccess s a 4 .write = .ok ∧ overlapsText s a 4 = true ∧ writeDest s d x = .refused (.storeToProgramText a)) ∨
       (scalarAccess s a 4 .write = .ok ∧ overlapsText s a 4 = false ∧ writeDest s d x = .next (s.writeL a x))) := by
  cases d with
  | reg n => exact .inl ⟨n, rfl, rfl⟩
  | mem a =>
    refine .inr ⟨a, rfl, ?_⟩
    unfold writeDest scalarAccess
    cases hd : inDeviceSpace s a 4 <;> cases ha : accessCheck s a 4 .write <;> cases ht : overlapsText s a 4 <;> simp [hd, ha, ht]

end Sys2Proof.Machine
end

