-- ==== Sys2Proof/Laws/Fits.lean ====
section
/-! SUPPORT. A parsed instruction's operand values are of the sorts its format asks for, so that they always make an
instruction. -/

namespace Sys2Proof.Machine

/-- A value is of an operand's sort (R82). -/
def Fits : OperandKind → OpVal → Prop
  | .rw, .word _ => True
  | .rl, .long _ => True
  | .rq, .quad _ => True
  | .ab, .addr _ => True
  | .wl, .dest _ => True
  | _, _ => False

/-- A specifier's constant, if it is one, is of an operand's size (R83). -/
def SpecFits : OperandKind → Spec → Prop
  | .rw, .immW _ => True
  | .rl, .immL _ => True
  | .rq, .immQ _ => True
  | _, .immW _ => False
  | _, .immL _ => False
  | _, .immQ _ => False
  | _, _ => True

/-- The specifiers of an instruction fit its operands. -/
abbrev SpecsFit (ks : List OperandKind) (sps : List Specifier) : Prop :=
  List.Forall₂ (fun k (sp : Specifier) => SpecFits k sp.spec) ks sps

theorem parseImmediate_fits {k : OperandKind} {bs : List Byte} {p : Spec × List Byte} (h : parseImmediate k bs = .ok p) :
    SpecFits k p.1 := by
  cases k <;> simp only [parseImmediate] at h <;> first | cases h | (split at h <;> cases h; trivial)

theorem parseSpec_fits {k : OperandKind} {bs : List Byte} {p : Spec × List Byte} (h : parseSpec k bs = .ok p) :
    SpecFits k p.1 := by
  unfold parseSpec at h
  split at h
  · cases h
  · simp only at h
    repeat' split at h
    all_goals first | cases h; done | exact parseImmediate_fits h | (cases h; cases k <;> trivial)

theorem parseSpecs_fits {total : Nat} {ks : List OperandKind} {bs : List Byte} {p : List Specifier × List Byte}
    (h : parseSpecs total ks bs = .ok p) : SpecsFit ks p.1 := by
  induction ks generalizing bs p with
  | nil => cases h; constructor
  | cons k ks ih =>
    simp only [parseSpecs] at h
    split at h
    · cases h
    · next hp =>
      split at h
      · cases h
      · next hq => cases h; exact .cons (parseSpec_fits hp) (ih hq)

/-- The specifiers of a parsed instruction fit its operands. -/
theorem parse_fits {bs : List Byte} {raw : RawInstr} {n : Nat} (h : parse bs = .ok (raw, n)) :
    SpecsFit raw.build.kinds raw.specs := by
  unfold parse at h
  repeat' split at h
  all_goals first | cases h; done | skip
  next hp => cases h; exact parseSpecs_fits hp

theorem memOperand_fits {s : State} {k : OperandKind} {a : Address} {p : OpVal × State}
    (h : memOperand s k a = .next p) : Fits k p.1 := by
  cases k <;> simp only [memOperand] at h
  case ab => cases h; trivial
  case wl => cases h; trivial
  all_goals (obtain ⟨rfl, -⟩ := scalarRead_next h; trivial)

theorem registerOperand_fits {s : State} {r15 : Longword} {k : OperandKind} {n : GReg} {p : OpVal × State}
    (h : registerOperand s r15 k n = .next p) : Fits k p.1 := by
  cases k <;> simp only [registerOperand] at h
  case rq => split at h <;> cases h; trivial
  case ab => cases h
  all_goals (cases h; trivial)

theorem staticVal_fits {k : OperandKind} {sp : Spec} {v : OpVal} (hs : SpecFits k sp) (h : staticVal k sp = some v) :
    Fits k v := by
  cases sp with
  | mem m => cases m <;> cases k <;> simp only [staticVal] at h <;> cases h <;> trivial
  | literal x => cases k <;> cases h <;> trivial
  | register n => cases k <;> cases h; trivial
  | immW x => cases k <;> cases h <;> trivial
  | immL x => cases k <;> cases h <;> trivial
  | immQ x => cases k <;> cases h <;> trivial

/-- The value of an operand is of the operand's sort. -/
theorem resolve_fits {s : State} {r15 : Longword} {k : OperandKind} {sp : Spec} {p : OpVal × State} (hs : SpecFits k sp)
    (h : resolve s r15 k sp = .next p) : Fits k p.1 := by
  unfold resolve at h
  split at h
  · next w hw => cases h; exact staticVal_fits hs hw
  · split at h
    · exact registerOperand_fits h
    · split at h
      · exact memOperand_fits h
      · cases h
      · cases h
    · cases h

/-- The values of an instruction's operands are of the operands' sorts. -/
theorem resolveAll_fits {s : State} {ks : List OperandKind} {sps : List Specifier} {p : List OpVal × State}
    (hs : SpecsFit ks sps) (h : resolveAll s ks sps = .next p) : List.Forall₂ Fits ks p.1 := by
  induction hs generalizing s p with
  | nil => cases h; constructor
  | cons h1 _ ih =>
    simp only [resolveAll] at h
    split at h
    · cases h
    · cases h
    · next hr =>
      split at h
      · cases h
      · cases h
      · next ha => cases h; exact .cons (resolve_fits h1 hr) (ih ha)

/-- Values of a format's sorts make an instruction. -/
theorem Builder.apply_fits {b : Builder} {vs : List OpVal} (h : List.Forall₂ Fits b.kinds vs) :
    ∃ i, b.apply vs = some i := by
  cases b <;> simp only [Builder.kinds] at h <;> (repeat (rcases h with _ | ⟨h1, h⟩)) <;>
    (repeat' (rename OpVal => v; cases v)) <;> simp_all [Fits, Builder.apply]

end Sys2Proof.Machine
end

