-- ==== Sys2Proof/Laws/Iota.lean ====
section
/-! SUPPORT. What IOTA does (R130, R131). -/

namespace Sys2Proof.Machine

/-- The elements of a loop are the numbers from 0 up to VLR. -/
theorem elements_consecutive : ∀ v : Fin 128,
    ((List.finRange NELEM).filter fun i => decide (i.val < v.val)).map Fin.val = List.range' 0 (min v.val 64) := by
  decide +kernel

theorem State.elements_val (s : State) : s.elements.map Fin.val = List.range' 0 (min s.vlr.toNat 64) :=
  elements_consecutive ⟨s.vlr.toNat, s.vlr.isLt⟩

/-- What IOTA may write. -/
abbrev iotaWrites (vc : VReg) : Writes := { vreg := some vc, vcr := true, draws := true }

theorem Unchanged.setLow_iota (s : State) (vc : VReg) (i : ElemIx) (x : Longword) :
    Unchanged (iotaWrites vc) s (s.setLow vc i x) where
  vreg := (Unchanged.setLow s vc i x).vreg
  vlr := fun _ => rfl
  vcr := fun _ => rfl
  vmr := fun _ => rfl
  mem := fun _ _ => rfl
  scalar := fun _ _ => rfl
  draws := fun h => by cases h
  pc := rfl
  text := rfl
  textBase := rfl
  access := rfl
  devices := rfl

theorem Unchanged.setVcr (s : State) (vc : VReg) (x : BitVec 7) :
    Unchanged (iotaWrites vc) s { s with vcr := x } where
  vreg := fun _ _ _ => rfl
  vlr := fun _ => rfl
  vcr := fun h => by cases h
  vmr := fun _ => rfl
  mem := fun _ _ => rfl
  scalar := fun _ _ => rfl
  draws := fun h => by cases h
  pc := rfl
  text := rfl
  textBase := rfl
  access := rfl
  devices := rfl

/-- What the rest of an IOTA loop does, from element `i0` on with `j` values written. -/
theorem iotaLoop_spec (mtf : Bool) (stride : Longword) (vc : VReg) (is : List ElemIx) (i0 j : Nat) (s : State)
    (consecutive : is.map Fin.val = List.range' i0 is.length) (room : j + is.length ≤ 64) :
    let t := iotaLoop mtf stride vc is j (BitVec.ofNat 32 i0 * stride) s
    let hits := is.filter fun i => s.maskBit i == mtf
    Unchanged (iotaWrites vc) s t ∧ s.draws ≤ t.draws ∧ t.vcr = BitVec.ofNat 7 (j + hits.length) ∧
      (∀ k i, hits[k]? = some i → LowResult s t vc (Fin.ofNat NELEM (j + k)) (BitVec.ofNat 32 i.val * stride)) ∧
      ∀ m : ElemIx, (m.val < j ∨ j + hits.length ≤ m.val) → t.elem vc m = s.elem vc m := by
  induction is generalizing i0 j s with
  | nil =>
    refine ⟨Unchanged.setVcr s vc _, le_refl _, rfl, ?_, fun _ _ => rfl⟩
    intro k i h
    simp at h
  | cons i is ih =>
    simp only [List.map_cons, List.length_cons, List.range'_succ, List.cons.injEq] at consecutive
    obtain ⟨hi, tail⟩ := consecutive
    simp only [List.length_cons] at room
    have next : BitVec.ofNat 32 i0 * stride + stride = BitVec.ofNat 32 (i0 + 1) * stride := by
      rw [BitVec.ofNat_add, BitVec.add_mul, BitVec.one_mul]
    by_cases hm : (s.maskBit i == mtf) = true
    · have hj : (Fin.ofNat NELEM j).val = j := Nat.mod_eq_of_lt (show j < 64 by omega)
      have bits : ∀ m, (s.setLow vc (Fin.ofNat NELEM j) (BitVec.ofNat 32 i0 * stride)).maskBit m = s.maskBit m :=
        fun _ => rfl
      have := ih (i0 + 1) (j + 1) (s.setLow vc (Fin.ofNat NELEM j) (BitVec.ofNat 32 i0 * stride)) tail (by omega)
      simp only [bits] at this
      obtain ⟨fr, dr, cnt, res, oth⟩ := this
      simp only [iotaLoop, hm, if_true, List.filter_cons, next, List.length_cons]
      refine ⟨(Unchanged.setLow_iota s vc _ _).trans fr, ?_, ?_, ?_, ?_⟩
      · simp only [State.setLow_draws] at dr; omega
      · rw [cnt]; congr 1; omega
      · intro k l hk
        cases k with
        | zero =>
          simp only [List.getElem?_cons_zero, Option.some.injEq] at hk
          subst hk
          have e := oth (Fin.ofNat NELEM j) (.inl (by rw [hj]; omega))
          rw [hi]
          show LowResult s _ vc (Fin.ofNat NELEM j) _
          simp only [State.setLow_draws] at dr
          refine ⟨?_, s.draws, le_refl _, by omega, ?_⟩
          · rw [e, State.elem_setLow]; simp
          · rw [e, State.elem_setLow]; simp
        | succ k =>
          simp only [List.getElem?_cons_succ] at hk
          obtain ⟨r1, d, r2, r3, r4⟩ := res k l hk
          simp only [State.setLow_draws] at r2
          rw [show j + (k + 1) = j + 1 + k by omega]
          exact ⟨r1, d, by omega, r3, r4⟩
      · intro m hm'
        rw [oth m (by omega), State.elem_setLow, if_neg]
        rintro ⟨_, rfl⟩
        omega
    · have := ih (i0 + 1) j s tail (by omega)
      obtain ⟨fr, dr, cnt, res, oth⟩ := this
      simp only [iotaLoop, List.filter_cons, next, if_neg hm]
      exact ⟨fr, dr, cnt, res, oth⟩

/-- What IOTA does: the matching element numbers times the stride, in order, from element 0 on, and their count. -/
theorem iota_spec (c : Cntrl) (stride : Longword) (s : State) :
    let t := iotaLoop c.mtf stride c.vc s.elements 0 0 s
    Unchanged (iotaWrites c.vc) s t ∧ s.draws ≤ t.draws ∧ t.vcr.toNat = (matching c s).length ∧
      (∀ k i, (matching c s)[k]? = some i → LowResult s t c.vc (Fin.ofNat NELEM k) (BitVec.ofNat 32 i.val * stride)) ∧
      ∀ m : ElemIx, (matching c s).length ≤ m.val → t.elem c.vc m = s.elem c.vc m := by
  have len : s.elements.length = min s.vlr.toNat 64 := by
    have := congrArg List.length s.elements_val
    simpa using this
  have le : s.elements.length ≤ 64 := by omega
  have := iotaLoop_spec c.mtf stride c.vc s.elements 0 0 s (by rw [s.elements_val, len]) (by omega)
  simp only [BitVec.zero_mul, Nat.zero_add] at this
  obtain ⟨fr, dr, cnt, res, oth⟩ := this
  have short : (matching c s).length ≤ s.elements.length := List.length_filter_le _ _
  refine ⟨fr, dr, ?_, res, fun m h => oth m (.inr h)⟩
  have cnt' := congrArg BitVec.toNat cnt
  rw [BitVec.toNat_ofNat] at cnt'
  have small : (matching c s).length < 2 ^ 7 := by omega
  exact cnt'.trans (Nat.mod_eq_of_lt small)

end Sys2Proof.Machine
end

