-- ==== Sys2Proof/Laws/PerInstr.lean ====
section
/-! SUPPORT. The family of statements made per instruction: the opcode-level instruction that a mnemonic stands for is
well-formed when the mnemonic is, so that what the assembler builds is never refused for its encoding. -/

namespace Sys2Proof.Laws

/-- The control word of `VV<rel><t>` is one that VVCMP gives a meaning. -/
theorem vv_cmp_wellFormed (q : MaskQual) (va vb : VReg) (rel : Rel) :
    cmpWellFormed mbzVVNoExc (Cntrl.vvCmp q va vb rel) = true := by
  simp [cmpWellFormed, Cntrl.vvCmp, make_mbzVVNoExc, make_cmpBit3, make_rel]

/-- The control word of `VS<rel><t>` is one that VSCMP gives a meaning. -/
theorem vs_cmp_wellFormed (q : MaskQual) (vb : VReg) (rel : Rel) :
    cmpWellFormed mbzVSNoExc (Cntrl.vsCmp q vb rel) = true := by
  simp [cmpWellFormed, Cntrl.vsCmp, make_mbzVSNoExc, make_cmpBit3, make_rel]

/-- The control word of `VVCVT<s><d>` is one that VVCVT gives a meaning. -/
theorem cvt_wellFormed (f : CvtFunc) (u : Bool) (q : MaskQual) (vb vc : VReg) :
    (Cntrl.zeroUnder mbzVV (Cntrl.cvt f u q vb vc) && (Cntrl.cvt f u q vb vc).cvtFunc.isSome) = true := by
  simp [Cntrl.cvt, make_mbzVV, make_cvtFunc]

/-- The control word of a VSMERGE spelling is one that VSMERGE gives a meaning. -/
theorem vs_merge_wellFormed (mtf : Bool) (vb vc : VReg) :
    Cntrl.zeroUnder mbzVSMerge (Cntrl.vsMerge mtf vb vc) = true := make_mbzVSMerge mtf vb.field vc.field

/-- A well-formed instruction stands for a well-formed opcode-level instruction. -/
def LowerWellFormed.Statement (i : Instr) : Prop := i.wellFormed = true → i.lower.wellFormed = true

theorem LowerWellFormed.mfvp (regnum : Word) (dst : Dest) : LowerWellFormed.Statement (.mfvp regnum dst) := fun h => h
theorem LowerWellFormed.vldl (c : Cntrl) (base : Address) (stride : Longword) : LowerWellFormed.Statement (.vldl c base stride) :=
  fun h => h
theorem LowerWellFormed.vgathl (c : Cntrl) (base : Address) : LowerWellFormed.Statement (.vgathl c base) := fun h => h
theorem LowerWellFormed.vldq (c : Cntrl) (base : Address) (stride : Longword) : LowerWellFormed.Statement (.vldq c base stride) :=
  fun h => h
theorem LowerWellFormed.vgathq (c : Cntrl) (base : Address) : LowerWellFormed.Statement (.vgathq c base) := fun h => h
theorem LowerWellFormed.vvaddl (c : Cntrl) : LowerWellFormed.Statement (.vvaddl c) := fun h => h
theorem LowerWellFormed.vsaddl (c : Cntrl) (x : Longword) : LowerWellFormed.Statement (.vsaddl c x) := fun h => h
theorem LowerWellFormed.vvaddg (c : Cntrl) : LowerWellFormed.Statement (.vvaddg c) := fun h => h
theorem LowerWellFormed.vsaddg (c : Cntrl) (x : Quadword) : LowerWellFormed.Statement (.vsaddg c x) := fun h => h
theorem LowerWellFormed.vvaddf (c : Cntrl) : LowerWellFormed.Statement (.vvaddf c) := fun h => h
theorem LowerWellFormed.vsaddf (c : Cntrl) (x : Longword) : LowerWellFormed.Statement (.vsaddf c x) := fun h => h
theorem LowerWellFormed.vvaddd (c : Cntrl) : LowerWellFormed.Statement (.vvaddd c) := fun h => h
theorem LowerWellFormed.vsaddd (c : Cntrl) (x : Quadword) : LowerWellFormed.Statement (.vsaddd c x) := fun h => h
theorem LowerWellFormed.vvsubl (c : Cntrl) : LowerWellFormed.Statement (.vvsubl c) := fun h => h
theorem LowerWellFormed.vssubl (c : Cntrl) (x : Longword) : LowerWellFormed.Statement (.vssubl c x) := fun h => h
theorem LowerWellFormed.vvsubg (c : Cntrl) : LowerWellFormed.Statement (.vvsubg c) := fun h => h
theorem LowerWellFormed.vssubg (c : Cntrl) (x : Quadword) : LowerWellFormed.Statement (.vssubg c x) := fun h => h
theorem LowerWellFormed.vvsubf (c : Cntrl) : LowerWellFormed.Statement (.vvsubf c) := fun h => h
theorem LowerWellFormed.vssubf (c : Cntrl) (x : Longword) : LowerWellFormed.Statement (.vssubf c x) := fun h => h
theorem LowerWellFormed.vvsubd (c : Cntrl) : LowerWellFormed.Statement (.vvsubd c) := fun h => h
theorem LowerWellFormed.vssubd (c : Cntrl) (x : Quadword) : LowerWellFormed.Statement (.vssubd c x) := fun h => h
theorem LowerWellFormed.vstl (c : Cntrl) (base : Address) (stride : Longword) : LowerWellFormed.Statement (.vstl c base stride) :=
  fun h => h
theorem LowerWellFormed.vscatl (c : Cntrl) (base : Address) : LowerWellFormed.Statement (.vscatl c base) := fun h => h
theorem LowerWellFormed.vstq (c : Cntrl) (base : Address) (stride : Longword) : LowerWellFormed.Statement (.vstq c base stride) :=
  fun h => h
theorem LowerWellFormed.vscatq (c : Cntrl) (base : Address) : LowerWellFormed.Statement (.vscatq c base) := fun h => h
theorem LowerWellFormed.vvmull (c : Cntrl) : LowerWellFormed.Statement (.vvmull c) := fun h => h
theorem LowerWellFormed.vsmull (c : Cntrl) (x : Longword) : LowerWellFormed.Statement (.vsmull c x) := fun h => h
theorem LowerWellFormed.vvmulg (c : Cntrl) : LowerWellFormed.Statement (.vvmulg c) := fun h => h
theorem LowerWellFormed.vsmulg (c : Cntrl) (x : Quadword) : LowerWellFormed.Statement (.vsmulg c x) := fun h => h
theorem LowerWellFormed.vvmulf (c : Cntrl) : LowerWellFormed.Statement (.vvmulf c) := fun h => h
theorem LowerWellFormed.vsmulf (c : Cntrl) (x : Longword) : LowerWellFormed.Statement (.vsmulf c x) := fun h => h
theorem LowerWellFormed.vvmuld (c : Cntrl) : LowerWellFormed.Statement (.vvmuld c) := fun h => h
theorem LowerWellFormed.vsmuld (c : Cntrl) (x : Quadword) : LowerWellFormed.Statement (.vsmuld c x) := fun h => h
theorem LowerWellFormed.vsync (regnum : Word) : LowerWellFormed.Statement (.vsync regnum) := fun h => h
theorem LowerWellFormed.mtvp (regnum : Word) (src : Longword) : LowerWellFormed.Statement (.mtvp regnum src) := fun h => h
theorem LowerWellFormed.vvdivg (c : Cntrl) : LowerWellFormed.Statement (.vvdivg c) := fun h => h
theorem LowerWellFormed.vsdivg (c : Cntrl) (x : Quadword) : LowerWellFormed.Statement (.vsdivg c x) := fun h => h
theorem LowerWellFormed.vvdivf (c : Cntrl) : LowerWellFormed.Statement (.vvdivf c) := fun h => h
theorem LowerWellFormed.vsdivf (c : Cntrl) (x : Longword) : LowerWellFormed.Statement (.vsdivf c x) := fun h => h
theorem LowerWellFormed.vvdivd (c : Cntrl) : LowerWellFormed.Statement (.vvdivd c) := fun h => h
theorem LowerWellFormed.vsdivd (c : Cntrl) (x : Quadword) : LowerWellFormed.Statement (.vsdivd c x) := fun h => h
theorem LowerWellFormed.vvcmpl (c : Cntrl) : LowerWellFormed.Statement (.vvcmpl c) := fun h => h
theorem LowerWellFormed.vscmpl (c : Cntrl) (x : Longword) : LowerWellFormed.Statement (.vscmpl c x) := fun h => h
theorem LowerWellFormed.vvcmpg (c : Cntrl) : LowerWellFormed.Statement (.vvcmpg c) := fun h => h
theorem LowerWellFormed.vscmpg (c : Cntrl) (x : Quadword) : LowerWellFormed.Statement (.vscmpg c x) := fun h => h
theorem LowerWellFormed.vvcmpf (c : Cntrl) : LowerWellFormed.Statement (.vvcmpf c) := fun h => h
theorem LowerWellFormed.vscmpf (c : Cntrl) (x : Longword) : LowerWellFormed.Statement (.vscmpf c x) := fun h => h
theorem LowerWellFormed.vvcmpd (c : Cntrl) : LowerWellFormed.Statement (.vvcmpd c) := fun h => h
theorem LowerWellFormed.vscmpd (c : Cntrl) (x : Quadword) : LowerWellFormed.Statement (.vscmpd c x) := fun h => h
theorem LowerWellFormed.vvbisl (c : Cntrl) : LowerWellFormed.Statement (.vvbisl c) := fun h => h
theorem LowerWellFormed.vsbisl (c : Cntrl) (x : Longword) : LowerWellFormed.Statement (.vsbisl c x) := fun h => h
theorem LowerWellFormed.vvbicl (c : Cntrl) : LowerWellFormed.Statement (.vvbicl c) := fun h => h
theorem LowerWellFormed.vsbicl (c : Cntrl) (x : Longword) : LowerWellFormed.Statement (.vsbicl c x) := fun h => h
theorem LowerWellFormed.vvsrll (c : Cntrl) : LowerWellFormed.Statement (.vvsrll c) := fun h => h
theorem LowerWellFormed.vssrll (c : Cntrl) (x : Longword) : LowerWellFormed.Statement (.vssrll c x) := fun h => h
theorem LowerWellFormed.vvslll (c : Cntrl) : LowerWellFormed.Statement (.vvslll c) := fun h => h
theorem LowerWellFormed.vsslll (c : Cntrl) (x : Longword) : LowerWellFormed.Statement (.vsslll c x) := fun h => h
theorem LowerWellFormed.vvxorl (c : Cntrl) : LowerWellFormed.Statement (.vvxorl c) := fun h => h
theorem LowerWellFormed.vsxorl (c : Cntrl) (x : Longword) : LowerWellFormed.Statement (.vsxorl c x) := fun h => h
theorem LowerWellFormed.vvcvt (c : Cntrl) : LowerWellFormed.Statement (.vvcvt c) := fun h => h
theorem LowerWellFormed.iota (c : Cntrl) (stride : Longword) : LowerWellFormed.Statement (.iota c stride) := fun h => h
theorem LowerWellFormed.vvmerge (c : Cntrl) : LowerWellFormed.Statement (.vvmerge c) := fun h => h
theorem LowerWellFormed.vsmerge (c : Cntrl) (x : Quadword) : LowerWellFormed.Statement (.vsmerge c x) := fun h => h
theorem LowerWellFormed.vvgtrf (q : MaskQual) (va vb : VReg) : LowerWellFormed.Statement (.vvgtrf q va vb) :=
  fun _ => vv_cmp_wellFormed q va vb .gtr
theorem LowerWellFormed.vveqlf (q : MaskQual) (va vb : VReg) : LowerWellFormed.Statement (.vveqlf q va vb) :=
  fun _ => vv_cmp_wellFormed q va vb .eql
theorem LowerWellFormed.vvlssf (q : MaskQual) (va vb : VReg) : LowerWellFormed.Statement (.vvlssf q va vb) :=
  fun _ => vv_cmp_wellFormed q va vb .lss
theorem LowerWellFormed.vvleqf (q : MaskQual) (va vb : VReg) : LowerWellFormed.Statement (.vvleqf q va vb) :=
  fun _ => vv_cmp_wellFormed q va vb .leq
theorem LowerWellFormed.vvneqf (q : MaskQual) (va vb : VReg) : LowerWellFormed.Statement (.vvneqf q va vb) :=
  fun _ => vv_cmp_wellFormed q va vb .neq
theorem LowerWellFormed.vvgeqf (q : MaskQual) (va vb : VReg) : LowerWellFormed.Statement (.vvgeqf q va vb) :=
  fun _ => vv_cmp_wellFormed q va vb .geq
theorem LowerWellFormed.vsgtrf (q : MaskQual) (src : Longword) (vb : VReg) : LowerWellFormed.Statement (.vsgtrf q src vb) :=
  fun _ => vs_cmp_wellFormed q vb .gtr
theorem LowerWellFormed.vseqlf (q : MaskQual) (src : Longword) (vb : VReg) : LowerWellFormed.Statement (.vseqlf q src vb) :=
  fun _ => vs_cmp_wellFormed q vb .eql
theorem LowerWellFormed.vslssf (q : MaskQual) (src : Longword) (vb : VReg) : LowerWellFormed.Statement (.vslssf q src vb) :=
  fun _ => vs_cmp_wellFormed q vb .lss
theorem LowerWellFormed.vsleqf (q : MaskQual) (src : Longword) (vb : VReg) : LowerWellFormed.Statement (.vsleqf q src vb) :=
  fun _ => vs_cmp_wellFormed q vb .leq
theorem LowerWellFormed.vsneqf (q : MaskQual) (src : Longword) (vb : VReg) : LowerWellFormed.Statement (.vsneqf q src vb) :=
  fun _ => vs_cmp_wellFormed q vb .neq
theorem LowerWellFormed.vsgeqf (q : MaskQual) (src : Longword) (vb : VReg) : LowerWellFormed.Statement (.vsgeqf q src vb) :=
  fun _ => vs_cmp_wellFormed q vb .geq
theorem LowerWellFormed.vvgtrd (q : MaskQual) (va vb : VReg) : LowerWellFormed.Statement (.vvgtrd q va vb) :=
  fun _ => vv_cmp_wellFormed q va vb .gtr
theorem LowerWellFormed.vveqld (q : MaskQual) (va vb : VReg) : LowerWellFormed.Statement (.vveqld q va vb) :=
  fun _ => vv_cmp_wellFormed q va vb .eql
theorem LowerWellFormed.vvlssd (q : MaskQual) (va vb : VReg) : LowerWellFormed.Statement (.vvlssd q va vb) :=
  fun _ => vv_cmp_wellFormed q va vb .lss
theorem LowerWellFormed.vvleqd (q : MaskQual) (va vb : VReg) : LowerWellFormed.Statement (.vvleqd q va vb) :=
  fun _ => vv_cmp_wellFormed q va vb .leq
theorem LowerWellFormed.vvneqd (q : MaskQual) (va vb : VReg) : LowerWellFormed.Statement (.vvneqd q va vb) :=
  fun _ => vv_cmp_wellFormed q va vb .neq
theorem LowerWellFormed.vvgeqd (q : MaskQual) (va vb : VReg) : LowerWellFormed.Statement (.vvgeqd q va vb) :=
  fun _ => vv_cmp_wellFormed q va vb .geq
theorem LowerWellFormed.vsgtrd (q : MaskQual) (src : Quadword) (vb : VReg) : LowerWellFormed.Statement (.vsgtrd q src vb) :=
  fun _ => vs_cmp_wellFormed q vb .gtr
theorem LowerWellFormed.vseqld (q : MaskQual) (src : Quadword) (vb : VReg) : LowerWellFormed.Statement (.vseqld q src vb) :=
  fun _ => vs_cmp_wellFormed q vb .eql
theorem LowerWellFormed.vslssd (q : MaskQual) (src : Quadword) (vb : VReg) : LowerWellFormed.Statement (.vslssd q src vb) :=
  fun _ => vs_cmp_wellFormed q vb .lss
theorem LowerWellFormed.vsleqd (q : MaskQual) (src : Quadword) (vb : VReg) : LowerWellFormed.Statement (.vsleqd q src vb) :=
  fun _ => vs_cmp_wellFormed q vb .leq
theorem LowerWellFormed.vsneqd (q : MaskQual) (src : Quadword) (vb : VReg) : LowerWellFormed.Statement (.vsneqd q src vb) :=
  fun _ => vs_cmp_wellFormed q vb .neq
theorem LowerWellFormed.vsgeqd (q : MaskQual) (src : Quadword) (vb : VReg) : LowerWellFormed.Statement (.vsgeqd q src vb) :=
  fun _ => vs_cmp_wellFormed q vb .geq
theorem LowerWellFormed.vvgtrg (q : MaskQual) (va vb : VReg) : LowerWellFormed.Statement (.vvgtrg q va vb) :=
  fun _ => vv_cmp_wellFormed q va vb .gtr
theorem LowerWellFormed.vveqlg (q : MaskQual) (va vb : VReg) : LowerWellFormed.Statement (.vveqlg q va vb) :=
  fun _ => vv_cmp_wellFormed q va vb .eql
theorem LowerWellFormed.vvlssg (q : MaskQual) (va vb : VReg) : LowerWellFormed.Statement (.vvlssg q va vb) :=
  fun _ => vv_cmp_wellFormed q va vb .lss
theorem LowerWellFormed.vvleqg (q : MaskQual) (va vb : VReg) : LowerWellFormed.Statement (.vvleqg q va vb) :=
  fun _ => vv_cmp_wellFormed q va vb .leq
theorem LowerWellFormed.vvneqg (q : MaskQual) (va vb : VReg) : LowerWellFormed.Statement (.vvneqg q va vb) :=
  fun _ => vv_cmp_wellFormed q va vb .neq
theorem LowerWellFormed.vvgeqg (q : MaskQual) (va vb : VReg) : LowerWellFormed.Statement (.vvgeqg q va vb) :=
  fun _ => vv_cmp_wellFormed q va vb .geq
theorem LowerWellFormed.vsgtrg (q : MaskQual) (src : Quadword) (vb : VReg) : LowerWellFormed.Statement (.vsgtrg q src vb) :=
  fun _ => vs_cmp_wellFormed q vb .gtr
theorem LowerWellFormed.vseqlg (q : MaskQual) (src : Quadword) (vb : VReg) : LowerWellFormed.Statement (.vseqlg q src vb) :=
  fun _ => vs_cmp_wellFormed q vb .eql
theorem LowerWellFormed.vslssg (q : MaskQual) (src : Quadword) (vb : VReg) : LowerWellFormed.Statement (.vslssg q src vb) :=
  fun _ => vs_cmp_wellFormed q vb .lss
theorem LowerWellFormed.vsleqg (q : MaskQual) (src : Quadword) (vb : VReg) : LowerWellFormed.Statement (.vsleqg q src vb) :=
  fun _ => vs_cmp_wellFormed q vb .leq
theorem LowerWellFormed.vsneqg (q : MaskQual) (src : Quadword) (vb : VReg) : LowerWellFormed.Statement (.vsneqg q src vb) :=
  fun _ => vs_cmp_wellFormed q vb .neq
theorem LowerWellFormed.vsgeqg (q : MaskQual) (src : Quadword) (vb : VReg) : LowerWellFormed.Statement (.vsgeqg q src vb) :=
  fun _ => vs_cmp_wellFormed q vb .geq
theorem LowerWellFormed.vvgtrl (q : MaskQual) (va vb : VReg) : LowerWellFormed.Statement (.vvgtrl q va vb) :=
  fun _ => vv_cmp_wellFormed q va vb .gtr
theorem LowerWellFormed.vveqll (q : MaskQual) (va vb : VReg) : LowerWellFormed.Statement (.vveqll q va vb) :=
  fun _ => vv_cmp_wellFormed q va vb .eql
theorem LowerWellFormed.vvlssl (q : MaskQual) (va vb : VReg) : LowerWellFormed.Statement (.vvlssl q va vb) :=
  fun _ => vv_cmp_wellFormed q va vb .lss
theorem LowerWellFormed.vvleql (q : MaskQual) (va vb : VReg) : LowerWellFormed.Statement (.vvleql q va vb) :=
  fun _ => vv_cmp_wellFormed q va vb .leq
theorem LowerWellFormed.vvneql (q : MaskQual) (va vb : VReg) : LowerWellFormed.Statement (.vvneql q va vb) :=
  fun _ => vv_cmp_wellFormed q va vb .neq
theorem LowerWellFormed.vvgeql (q : MaskQual) (va vb : VReg) : LowerWellFormed.Statement (.vvgeql q va vb) :=
  fun _ => vv_cmp_wellFormed q va vb .geq
theorem LowerWellFormed.vsgtrl (q : MaskQual) (src : Longword) (vb : VReg) : LowerWellFormed.Statement (.vsgtrl q src vb) :=
  fun _ => vs_cmp_wellFormed q vb .gtr
theorem LowerWellFormed.vseqll (q : MaskQual) (src : Longword) (vb : VReg) : LowerWellFormed.Statement (.vseqll q src vb) :=
  fun _ => vs_cmp_wellFormed q vb .eql
theorem LowerWellFormed.vslssl (q : MaskQual) (src : Longword) (vb : VReg) : LowerWellFormed.Statement (.vslssl q src vb) :=
  fun _ => vs_cmp_wellFormed q vb .lss
theorem LowerWellFormed.vsleql (q : MaskQual) (src : Longword) (vb : VReg) : LowerWellFormed.Statement (.vsleql q src vb) :=
  fun _ => vs_cmp_wellFormed q vb .leq
theorem LowerWellFormed.vsneql (q : MaskQual) (src : Longword) (vb : VReg) : LowerWellFormed.Statement (.vsneql q src vb) :=
  fun _ => vs_cmp_wellFormed q vb .neq
theorem LowerWellFormed.vsgeql (q : MaskQual) (src : Longword) (vb : VReg) : LowerWellFormed.Statement (.vsgeql q src vb) :=
  fun _ => vs_cmp_wellFormed q vb .geq
theorem LowerWellFormed.vvcvtlf (u : Bool) (q : MaskQual) (vb vc : VReg) : LowerWellFormed.Statement (.vvcvtlf u q vb vc) :=
  fun _ => cvt_wellFormed .cvtlf u q vb vc
theorem LowerWellFormed.vvcvtld (u : Bool) (q : MaskQual) (vb vc : VReg) : LowerWellFormed.Statement (.vvcvtld u q vb vc) :=
  fun _ => cvt_wellFormed .cvtld u q vb vc
theorem LowerWellFormed.vvcvtlg (u : Bool) (q : MaskQual) (vb vc : VReg) : LowerWellFormed.Statement (.vvcvtlg u q vb vc) :=
  fun _ => cvt_wellFormed .cvtlg u q vb vc
theorem LowerWellFormed.vvcvtfl (u : Bool) (q : MaskQual) (vb vc : VReg) : LowerWellFormed.Statement (.vvcvtfl u q vb vc) :=
  fun _ => cvt_wellFormed .cvtfl u q vb vc
theorem LowerWellFormed.vvcvtrfl (u : Bool) (q : MaskQual) (vb vc : VReg) : LowerWellFormed.Statement (.vvcvtrfl u q vb vc) :=
  fun _ => cvt_wellFormed .cvtrfl u q vb vc
theorem LowerWellFormed.vvcvtfd (u : Bool) (q : MaskQual) (vb vc : VReg) : LowerWellFormed.Statement (.vvcvtfd u q vb vc) :=
  fun _ => cvt_wellFormed .cvtfd u q vb vc
theorem LowerWellFormed.vvcvtfg (u : Bool) (q : MaskQual) (vb vc : VReg) : LowerWellFormed.Statement (.vvcvtfg u q vb vc) :=
  fun _ => cvt_wellFormed .cvtfg u q vb vc
theorem LowerWellFormed.vvcvtdl (u : Bool) (q : MaskQual) (vb vc : VReg) : LowerWellFormed.Statement (.vvcvtdl u q vb vc) :=
  fun _ => cvt_wellFormed .cvtdl u q vb vc
theorem LowerWellFormed.vvcvtdf (u : Bool) (q : MaskQual) (vb vc : VReg) : LowerWellFormed.Statement (.vvcvtdf u q vb vc) :=
  fun _ => cvt_wellFormed .cvtdf u q vb vc
theorem LowerWellFormed.vvcvtrdl (u : Bool) (q : MaskQual) (vb vc : VReg) : LowerWellFormed.Statement (.vvcvtrdl u q vb vc) :=
  fun _ => cvt_wellFormed .cvtrdl u q vb vc
theorem LowerWellFormed.vvcvtgl (u : Bool) (q : MaskQual) (vb vc : VReg) : LowerWellFormed.Statement (.vvcvtgl u q vb vc) :=
  fun _ => cvt_wellFormed .cvtgl u q vb vc
theorem LowerWellFormed.vvcvtgf (u : Bool) (q : MaskQual) (vb vc : VReg) : LowerWellFormed.Statement (.vvcvtgf u q vb vc) :=
  fun _ => cvt_wellFormed .cvtgf u q vb vc
theorem LowerWellFormed.vvcvtrgl (u : Bool) (q : MaskQual) (vb vc : VReg) : LowerWellFormed.Statement (.vvcvtrgl u q vb vc) :=
  fun _ => cvt_wellFormed .cvtrgl u q vb vc
theorem LowerWellFormed.mfvcr (dst : Dest) : LowerWellFormed.Statement (.mfvcr dst) := fun _ => rfl
theorem LowerWellFormed.mfvlr (dst : Dest) : LowerWellFormed.Statement (.mfvlr dst) := fun _ => rfl
theorem LowerWellFormed.mfvmrlo (dst : Dest) : LowerWellFormed.Statement (.mfvmrlo dst) := fun _ => rfl
theorem LowerWellFormed.mfvmrhi (dst : Dest) : LowerWellFormed.Statement (.mfvmrhi dst) := fun _ => rfl
theorem LowerWellFormed.synch (dst : Dest) : LowerWellFormed.Statement (.synch dst) := fun _ => rfl
theorem LowerWellFormed.msynch (dst : Dest) : LowerWellFormed.Statement (.msynch dst) := fun _ => rfl
theorem LowerWellFormed.mtvcr (src : Longword) : LowerWellFormed.Statement (.mtvcr src) := fun h => h
theorem LowerWellFormed.mtvlr (src : Longword) : LowerWellFormed.Statement (.mtvlr src) := fun h => h
theorem LowerWellFormed.mtvmrlo (src : Longword) : LowerWellFormed.Statement (.mtvmrlo src) := fun _ => rfl
theorem LowerWellFormed.mtvmrhi (src : Longword) : LowerWellFormed.Statement (.mtvmrhi src) := fun _ => rfl
theorem LowerWellFormed.vsynch : LowerWellFormed.Statement .vsynch := fun _ => rfl
theorem LowerWellFormed.vsmergef (mtf : Bool) (src : Quadword) (vb vc : VReg) : LowerWellFormed.Statement (.vsmergef mtf src vb vc) :=
  fun _ => vs_merge_wellFormed mtf vb vc
theorem LowerWellFormed.vsmerged (mtf : Bool) (src : Quadword) (vb vc : VReg) : LowerWellFormed.Statement (.vsmerged mtf src vb vc) :=
  fun _ => vs_merge_wellFormed mtf vb vc
theorem LowerWellFormed.vsmergeg (mtf : Bool) (src : Quadword) (vb vc : VReg) : LowerWellFormed.Statement (.vsmergeg mtf src vb vc) :=
  fun _ => vs_merge_wellFormed mtf vb vc

end Sys2Proof.Laws
end

