-- ==== Sys2Proof/Laws/Step.lean ====
section
/-! SUPPORT. What a step can do, said once; a mnemonic does what the instruction it stands for does. -/

namespace Sys2Proof.Machine

/-- An instruction does what the opcode-level instruction it stands for does (R117, R279, R294, R343). -/
theorem exec_lower (i : Instr) (s : State) : exec i.lower s = exec i s := by
  cases i <;> rfl

/-- A step that completes: it parsed an instruction that ends within the address space, read its operands, executed it, and
fell through. -/
theorem step_next {s t : State} (h : step s = .next t) :
    ∃ raw n i s' u, parse s.fetchBytes = .ok (raw, n) ∧ s.pc.toNat + n ≤ 2 ^ 32 ∧ s.resolveInstr raw = .next (i, s') ∧
      exec i s' = .next u ∧ t = u.fallThrough n := by
  unfold step at h
  split at h
  · cases h
  · next raw n hp =>
    split at h
    · cases h
    · next hn =>
      split at h
      · cases h
      · cases h
      · next i s' hr =>
        split at h
        · cases h
        · cases h
        · next u hu =>
          cases h
          exact ⟨raw, n, i, s', u, hp, by omega, hr, hu, rfl⟩

/-- What a decoded instruction was parsed from. -/
theorem decode_ok {bs : List Byte} {i : Instr} {n : Nat} (h : decode bs = .ok (i, n)) :
    ∃ raw vs, parse bs = .ok (raw, n) ∧ staticVals raw.build.kinds raw.specs = some vs ∧
      raw.build.apply vs = some i := by
  unfold decode at h
  split at h
  · cases h
  · next raw m hp =>
    split at h
    · cases h
    · next vs hv =>
      split at h
      · cases h
      · next j hj => cases h; exact ⟨raw, vs, hp, hv, hj⟩

end Sys2Proof.Machine
end

