-- ==== Sys2Proof/Tests/Slice0.lean ====
section
/-! SUPPORT. Tests: well-formedness smoke tests, decoding of written-out words, one step per instruction, and a state and
operands that meet the hypotheses of each statement. Expected values come from 95_test_vectors.md
  (the vector is named), from
the tables of 30_encoding.md, or by hand from the rule named. -/

namespace Sys2Proof.Tests
open Sys2Proof.Machine

set_option Elab.async false

/-! ### Helpers -/

/-- The reset state with VLR and VMR set. -/
def start (vlr : BitVec 7) (vmr : BitVec 64) : State := { State.reset with vlr := vlr, vmr := vmr }

/-- Elements 0 and up of a register, upper halves 0. -/
def withLows (n : VReg) (xs : List Longword) (s : State) : State :=
  xs.zipIdx.foldl (fun s p => s.setElem n (Fin.ofNat NELEM p.2) ⟨0, p.1⟩) s

/-- Elements 0 and up of a register, all 64 bits. -/
def withQuads (n : VReg) (xs : List Quadword) (s : State) : State :=
  xs.zipIdx.foldl (fun s p => s.setElem n (Fin.ofNat NELEM p.2) (.ofQ p.1)) s

/-- Bytes of memory from an address on. -/
def withBytes (a : Address) (xs : List Byte) (s : State) : State :=
  xs.zipIdx.foldl (fun s p => s.writeByte (a + BitVec.ofNat 32 p.2) p.1) s

/-- One step with these bytes as the program text. -/
def run (bs : List Byte) (s : State) : Outcome := step { s with text := bs }

/-- A view of the next state, none for a fault or a refusal. -/
def next {α : Type} (view : State → α) : Outcome → Option α
  | .next s => some (view s)
  | _ => none

/-- Bits 31:0 of the first `k` elements of a register. -/
def lows (n : VReg) (k : Nat) (s : State) : List Longword := (List.range k).map fun i => (s.elem n (Fin.ofNat NELEM i)).lo

/-- All bits of the first `k` elements of a register. -/
def quads (n : VReg) (k : Nat) (s : State) : List Quadword := (List.range k).map fun i => (s.elem n (Fin.ofNat NELEM i)).q

/-- The first `k` bytes of memory from an address on. -/
def bytes (a : Address) (k : Nat) (s : State) : List Byte := (List.range k).map fun i => s.byte (a + BitVec.ofNat 32 i)

/-- The exception and the element of a fault. -/
def raised : Outcome → Option (Exc × ElemIx)
  | .fault (.raised e i _) => some (e, i)
  | _ => none

/-- The reason of a refusal. -/
def reason : Outcome → Option Refusal
  | .refused r => some r
  | _ => none

/-! ### Well-formedness: each check refuses an ill-formed term, and so does the machine (E40 to E56) -/

/-- E40 -/
theorem test_wf_vv_bit12 : (Instr.vvaddl 0x1123).wellFormed = false ∧
    reason (exec (.vvaddl 0x1123) State.reset) = some .nonzeroMbzField := by
  decide +kernel
/-- E41 -/
theorem test_wf_vs_bits11_8 : (Instr.vsaddl 0x0123 1).wellFormed = false ∧
    reason (exec (.vsaddl 0x0123 1) State.reset) = some .nonzeroMbzField := by
  decide +kernel
/-- R86 -/
theorem test_wf_vs_noexc_bits11_8 : (Instr.vsslll 0x0123 1).wellFormed = false ∧
    reason (exec (.vsslll 0x0123 1) State.reset) = some .nonzeroMbzField := by
  decide +kernel
/-- E42 -/
theorem test_wf_vv_noexc_bit13 : (Instr.vvbisl 0x2123).wellFormed = false ∧
    reason (exec (.vvbisl 0x2123) State.reset) = some .nonzeroMbzField := by
  decide +kernel
/-- E43 -/
theorem test_wf_cmp_bit3 : (Instr.vvcmpf 0x0128).wellFormed = false ∧
    reason (exec (.vvcmpf 0x0128) State.reset) = some .vcmpCntrl3 := by
  decide +kernel
/-- E44 -/
theorem test_wf_cmp_func3 : (Instr.vvcmpf 0x0123).wellFormed = false ∧
    reason (exec (.vvcmpf 0x0123) State.reset) = some .reservedCmpFunc := by
  decide +kernel
/-- E45 -/
theorem test_wf_cmp_func7 : (Instr.vvcmpd 0x0127).wellFormed = false ∧
    reason (exec (.vvcmpd 0x0127) State.reset) = some .reservedCmpFunc := by
  decide +kernel
/-- R86 -/
theorem test_wf_cmp_scalar_bits11_8 : (Instr.vscmpl 0x0120 0).wellFormed = false ∧
    reason (exec (.vscmpl 0x0120 0) State.reset) = some .nonzeroMbzField := by
  decide +kernel
/-- E46 -/
theorem test_wf_cvt_func0 : (Instr.vvcvt 0x0012).wellFormed = false ∧
    reason (exec (.vvcvt 0x0012) State.reset) = some .reservedCvtFunc := by
  decide +kernel
/-- E47 -/
theorem test_wf_cvt_func11 : (Instr.vvcvt 0x0B12).wellFormed = false ∧
    reason (exec (.vvcvt 0x0B12) State.reset) = some .reservedCvtFunc := by
  decide +kernel
/-- E48 -/
theorem test_wf_cvt_func14 : (Instr.vvcvt 0x0E12).wellFormed = false ∧
    reason (exec (.vvcvt 0x0E12) State.reset) = some .reservedCvtFunc := by
  decide +kernel
/-- R86 -/
theorem test_wf_cvt_bit12 : (Instr.vvcvt 0x1112).wellFormed = false ∧
    reason (exec (.vvcvt 0x1112) State.reset) = some .nonzeroMbzField := by
  decide +kernel
/-- E49 -/
theorem test_wf_vvmerge_bit15 : (Instr.vvmerge 0x8123).wellFormed = false ∧
    reason (exec (.vvmerge 0x8123) State.reset) = some .nonzeroMbzField := by
  decide +kernel
/-- R86 -/
theorem test_wf_vsmerge_bits11_8 : (Instr.vsmerge 0x4123 0).wellFormed = false ∧
    reason (exec (.vsmerge 0x4123 0) State.reset) = some .nonzeroMbzField := by
  decide +kernel
/-- E50 -/
theorem test_wf_iota_bits7_4 : (Instr.iota 0x4015 4).wellFormed = false ∧
    reason (exec (.iota 0x4015 4) State.reset) = some .nonzeroMbzField := by
  decide +kernel
/-- E51 -/
theorem test_wf_load_bits7_4 : (Instr.vldl 0x0011 0x00001000 4).wellFormed = false ∧
    reason (exec (.vldl 0x0011 0x00001000 4) State.reset) = some .nonzeroMbzField := by
  decide +kernel
/-- R86 -/
theorem test_wf_gather_bits11_8 : (Instr.vgathq 0x0112 0x00001000).wellFormed = false ∧
    reason (exec (.vgathq 0x0112 0x00001000) State.reset) = some .nonzeroMbzField := by
  decide +kernel
/-- E52 -/
theorem test_wf_store_bit13 : (Instr.vstl 0x2001 0x00001000 4).wellFormed = false ∧
    reason (exec (.vstl 0x2001 0x00001000 4) State.reset) = some .nonzeroMbzField := by
  decide +kernel
/-- R86 -/
theorem test_wf_scatter_bit13 : (Instr.vscatl 0x2012 0x00001000).wellFormed = false ∧
    reason (exec (.vscatl 0x2012 0x00001000) State.reset) = some .nonzeroMbzField := by
  decide +kernel
/-- E53 -/
theorem test_wf_mfvp_regnum6 : (Instr.mfvp 6 (.reg 0)).wellFormed = false ∧
    reason (exec (.mfvp 6 (.reg 0)) State.reset) = some .reservedRegnum := by
  decide +kernel
/-- E54 -/
theorem test_wf_mtvp_regnum4 : (Instr.mtvp 4 0).wellFormed = false ∧
    reason (exec (.mtvp 4 0) State.reset) = some .reservedRegnum := by
  decide +kernel
/-- E55 -/
theorem test_wf_vsync_regnum1 : (Instr.vsync 1).wellFormed = false ∧
    reason (exec (.vsync 1) State.reset) = some .reservedRegnum := by
  decide +kernel
/-- E56 -/
theorem test_wf_mtvp_vlr65 : (Instr.mtvp 1 0x41).wellFormed = false ∧
    reason (exec (.mtvp 1 0x41) State.reset) = some .vlrOutOfRange := by
  decide +kernel
/-- E56 -/
theorem test_wf_mtvlr_65 : (Instr.mtvlr 0x41).wellFormed = false ∧
    reason (exec (.mtvlr 0x41) State.reset) = some .vlrOutOfRange := by
  decide +kernel
/-- R151 -/
theorem test_wf_mtvp_vcr128 : (Instr.mtvp 0 0x80).wellFormed = false ∧
    reason (exec (.mtvp 0 0x80) State.reset) = some .vcrOutOfRange := by
  decide +kernel
/-- R151 -/
theorem test_wf_mtvcr_128 : (Instr.mtvcr 0x80).wellFormed = false ∧
    reason (exec (.mtvcr 0x80) State.reset) = some .vcrOutOfRange := by
  decide +kernel
/-- MTVP takes the largest VLR and VCR values in range (R151, R152). -/
theorem test_wf_mtvp_limits : (Instr.mtvp 1 64).wellFormed = true ∧ (Instr.mtvp 0 127).wellFormed = true ∧
    (Instr.mtvp 3 0xFFFFFFFF).wellFormed = true := by decide

/-! ### Decoding: every opcode of R100, each word written out from R81, R82, R84 and R100 (control words as given) -/

theorem test_decode_mem :
  decode [0xFD, 0x34, 0x8F, 0xEE, 0x9C, 0x9F, 0x02, 0x00, 0xDC, 0xFE, 0x8F, 0x02, 0x32, 0x54, 0x76] =
    .ok (.vldl 0x9CEE 0xFEDC0002 0x76543202, 15) ∧
  decode [0xFD, 0x35, 0x8F, 0x65, 0xA3, 0x9F, 0x03, 0x00, 0xDC, 0xFE] =
    .ok (.vgathl 0xA365 0xFEDC0003, 10) ∧
  decode [0xFD, 0x36, 0x8F, 0xDC, 0xA9, 0x9F, 0x04, 0x00, 0xDC, 0xFE, 0x8F, 0x04, 0x32, 0x54, 0x76] =
    .ok (.vldq 0xA9DC 0xFEDC0004 0x76543204, 15) ∧
  decode [0xFD, 0x37, 0x8F, 0x53, 0xB0, 0x9F, 0x05, 0x00, 0xDC, 0xFE] =
    .ok (.vgathq 0xB053 0xFEDC0005, 10) ∧
  decode [0xFD, 0x9C, 0x8F, 0x3A, 0x1E, 0x9F, 0x16, 0x00, 0xDC, 0xFE, 0x8F, 0x16, 0x32, 0x54, 0x76] =
    .ok (.vstl 0x1E3A 0xFEDC0016 0x76543216, 15) ∧
  decode [0xFD, 0x9D, 0x8F, 0xB1, 0x24, 0x9F, 0x17, 0x00, 0xDC, 0xFE] =
    .ok (.vscatl 0x24B1 0xFEDC0017, 10) ∧
  decode [0xFD, 0x9E, 0x8F, 0x28, 0x2B, 0x9F, 0x18, 0x00, 0xDC, 0xFE, 0x8F, 0x18, 0x32, 0x54, 0x76] =
    .ok (.vstq 0x2B28 0xFEDC0018 0x76543218, 15) ∧
  decode [0xFD, 0x9F, 0x8F, 0x9F, 0x31, 0x9F, 0x19, 0x00, 0xDC, 0xFE] =
    .ok (.vscatq 0x319F 0xFEDC0019, 10) :=
  ⟨rfl, rfl, rfl, rfl, rfl, rfl, rfl, rfl⟩

theorem test_decode_addsub :
  decode [0xFD, 0x80, 0x8F, 0xCA, 0xB6] =
    .ok (.vvaddl 0xB6CA, 5) ∧
  decode [0xFD, 0x81, 0x8F, 0x41, 0xBD, 0x8F, 0x07, 0xCD, 0xAB, 0x89] =
    .ok (.vsaddl 0xBD41 0x89ABCD07, 10) ∧
  decode [0xFD, 0x82, 0x8F, 0xB8, 0xC3] =
    .ok (.vvaddg 0xC3B8, 5) ∧
  decode [0xFD, 0x83, 0x8F, 0x2F, 0xCA, 0x8F, 0x09, 0xCD, 0xAB, 0x89, 0x67, 0x45, 0x23, 0x01] =
    .ok (.vsaddg 0xCA2F 0x0123456789ABCD09, 14) ∧
  decode [0xFD, 0x84, 0x8F, 0xA6, 0xD0] =
    .ok (.vvaddf 0xD0A6, 5) ∧
  decode [0xFD, 0x85, 0x8F, 0x1D, 0xD7, 0x8F, 0x0B, 0xCD, 0xAB, 0x89] =
    .ok (.vsaddf 0xD71D 0x89ABCD0B, 10) ∧
  decode [0xFD, 0x86, 0x8F, 0x94, 0xDD] =
    .ok (.vvaddd 0xDD94, 5) ∧
  decode [0xFD, 0x87, 0x8F, 0x0B, 0xE4, 0x8F, 0x0D, 0xCD, 0xAB, 0x89, 0x67, 0x45, 0x23, 0x01] =
    .ok (.vsaddd 0xE40B 0x0123456789ABCD0D, 14) ∧
  decode [0xFD, 0x88, 0x8F, 0x82, 0xEA] =
    .ok (.vvsubl 0xEA82, 5) ∧
  decode [0xFD, 0x89, 0x8F, 0xF9, 0xF0, 0x8F, 0x0F, 0xCD, 0xAB, 0x89] =
    .ok (.vssubl 0xF0F9 0x89ABCD0F, 10) ∧
  decode [0xFD, 0x8A, 0x8F, 0x70, 0xF7] =
    .ok (.vvsubg 0xF770, 5) ∧
  decode [0xFD, 0x8B, 0x8F, 0xE7, 0xFD, 0x8F, 0x11, 0xCD, 0xAB, 0x89, 0x67, 0x45, 0x23, 0x01] =
    .ok (.vssubg 0xFDE7 0x0123456789ABCD11, 14) ∧
  decode [0xFD, 0x8C, 0x8F, 0x5E, 0x04] =
    .ok (.vvsubf 0x045E, 5) ∧
  decode [0xFD, 0x8D, 0x8F, 0xD5, 0x0A, 0x8F, 0x13, 0xCD, 0xAB, 0x89] =
    .ok (.vssubf 0x0AD5 0x89ABCD13, 10) ∧
  decode [0xFD, 0x8E, 0x8F, 0x4C, 0x11] =
    .ok (.vvsubd 0x114C, 5) ∧
  decode [0xFD, 0x8F, 0x8F, 0xC3, 0x17, 0x8F, 0x15, 0xCD, 0xAB, 0x89, 0x67, 0x45, 0x23, 0x01] =
    .ok (.vssubd 0x17C3 0x0123456789ABCD15, 14) :=
  ⟨rfl, rfl, rfl, rfl, rfl, rfl, rfl, rfl, rfl, rfl, rfl, rfl, rfl, rfl, rfl, rfl⟩

theorem test_decode_muldiv :
  decode [0xFD, 0xA0, 0x8F, 0x16, 0x38] =
    .ok (.vvmull 0x3816, 5) ∧
  decode [0xFD, 0xA1, 0x8F, 0x8D, 0x3E, 0x8F, 0x1B, 0xCD, 0xAB, 0x89] =
    .ok (.vsmull 0x3E8D 0x89ABCD1B, 10) ∧
  decode [0xFD, 0xA2, 0x8F, 0x04, 0x45] =
    .ok (.vvmulg 0x4504, 5) ∧
  decode [0xFD, 0xA3, 0x8F, 0x7B, 0x4B, 0x8F, 0x1D, 0xCD, 0xAB, 0x89, 0x67, 0x45, 0x23, 0x01] =
    .ok (.vsmulg 0x4B7B 0x0123456789ABCD1D, 14) ∧
  decode [0xFD, 0xA4, 0x8F, 0xF2, 0x51] =
    .ok (.vvmulf 0x51F2, 5) ∧
  decode [0xFD, 0xA5, 0x8F, 0x69, 0x58, 0x8F, 0x1F, 0xCD, 0xAB, 0x89] =
    .ok (.vsmulf 0x5869 0x89ABCD1F, 10) ∧
  decode [0xFD, 0xA6, 0x8F, 0xE0, 0x5E] =
    .ok (.vvmuld 0x5EE0, 5) ∧
  decode [0xFD, 0xA7, 0x8F, 0x57, 0x65, 0x8F, 0x21, 0xCD, 0xAB, 0x89, 0x67, 0x45, 0x23, 0x01] =
    .ok (.vsmuld 0x6557 0x0123456789ABCD21, 14) ∧
  decode [0xFD, 0xAA, 0x8F, 0xBC, 0x78] =
    .ok (.vvdivg 0x78BC, 5) ∧
  decode [0xFD, 0xAB, 0x8F, 0x33, 0x7F, 0x8F, 0x25, 0xCD, 0xAB, 0x89, 0x67, 0x45, 0x23, 0x01] =
    .ok (.vsdivg 0x7F33 0x0123456789ABCD25, 14) ∧
  decode [0xFD, 0xAC, 0x8F, 0xAA, 0x85] =
    .ok (.vvdivf 0x85AA, 5) ∧
  decode [0xFD, 0xAD, 0x8F, 0x21, 0x8C, 0x8F, 0x27, 0xCD, 0xAB, 0x89] =
    .ok (.vsdivf 0x8C21 0x89ABCD27, 10) ∧
  decode [0xFD, 0xAE, 0x8F, 0x98, 0x92] =
    .ok (.vvdivd 0x9298, 5) ∧
  decode [0xFD, 0xAF, 0x8F, 0x0F, 0x99, 0x8F, 0x29, 0xCD, 0xAB, 0x89, 0x67, 0x45, 0x23, 0x01] =
    .ok (.vsdivd 0x990F 0x0123456789ABCD29, 14) :=
  ⟨rfl, rfl, rfl, rfl, rfl, rfl, rfl, rfl, rfl, rfl, rfl, rfl, rfl, rfl⟩

theorem test_decode_compare :
  decode [0xFD, 0xC0, 0x8F, 0x86, 0x9F] =
    .ok (.vvcmpl 0x9F86, 5) ∧
  decode [0xFD, 0xC1, 0x8F, 0xFD, 0xA5, 0x8F, 0x2B, 0xCD, 0xAB, 0x89] =
    .ok (.vscmpl 0xA5FD 0x89ABCD2B, 10) ∧
  decode [0xFD, 0xC2, 0x8F, 0x74, 0xAC] =
    .ok (.vvcmpg 0xAC74, 5) ∧
  decode [0xFD, 0xC3, 0x8F, 0xEB, 0xB2, 0x8F, 0x2D, 0xCD, 0xAB, 0x89, 0x67, 0x45, 0x23, 0x01] =
    .ok (.vscmpg 0xB2EB 0x0123456789ABCD2D, 14) ∧
  decode [0xFD, 0xC4, 0x8F, 0x62, 0xB9] =
    .ok (.vvcmpf 0xB962, 5) ∧
  decode [0xFD, 0xC5, 0x8F, 0xD9, 0xBF, 0x8F, 0x2F, 0xCD, 0xAB, 0x89] =
    .ok (.vscmpf 0xBFD9 0x89ABCD2F, 10) ∧
  decode [0xFD, 0xC6, 0x8F, 0x50, 0xC6] =
    .ok (.vvcmpd 0xC650, 5) ∧
  decode [0xFD, 0xC7, 0x8F, 0xC7, 0xCC, 0x8F, 0x31, 0xCD, 0xAB, 0x89, 0x67, 0x45, 0x23, 0x01] =
    .ok (.vscmpd 0xCCC7 0x0123456789ABCD31, 14) :=
  ⟨rfl, rfl, rfl, rfl, rfl, rfl, rfl, rfl⟩

theorem test_decode_other :
  decode [0xFD, 0xC8, 0x8F, 0x3E, 0xD3] =
    .ok (.vvbisl 0xD33E, 5) ∧
  decode [0xFD, 0xC9, 0x8F, 0xB5, 0xD9, 0x8F, 0x33, 0xCD, 0xAB, 0x89] =
    .ok (.vsbisl 0xD9B5 0x89ABCD33, 10) ∧
  decode [0xFD, 0xCC, 0x8F, 0x2C, 0xE0] =
    .ok (.vvbicl 0xE02C, 5) ∧
  decode [0xFD, 0xCD, 0x8F, 0xA3, 0xE6, 0x8F, 0x35, 0xCD, 0xAB, 0x89] =
    .ok (.vsbicl 0xE6A3 0x89ABCD35, 10) ∧
  decode [0xFD, 0xE0, 0x8F, 0x1A, 0xED] =
    .ok (.vvsrll 0xED1A, 5) ∧
  decode [0xFD, 0xE1, 0x8F, 0x91, 0xF3, 0x8F, 0x37, 0xCD, 0xAB, 0x89] =
    .ok (.vssrll 0xF391 0x89ABCD37, 10) ∧
  decode [0xFD, 0xE4, 0x8F, 0x08, 0xFA] =
    .ok (.vvslll 0xFA08, 5) ∧
  decode [0xFD, 0xE5, 0x8F, 0x7F, 0x00, 0x8F, 0x39, 0xCD, 0xAB, 0x89] =
    .ok (.vsslll 0x007F 0x89ABCD39, 10) ∧
  decode [0xFD, 0xE8, 0x8F, 0xF6, 0x06] =
    .ok (.vvxorl 0x06F6, 5) ∧
  decode [0xFD, 0xE9, 0x8F, 0x6D, 0x0D, 0x8F, 0x3B, 0xCD, 0xAB, 0x89] =
    .ok (.vsxorl 0x0D6D 0x89ABCD3B, 10) ∧
  decode [0xFD, 0xEC, 0x8F, 0xE4, 0x13] =
    .ok (.vvcvt 0x13E4, 5) ∧
  decode [0xFD, 0xED, 0x8F, 0x5B, 0x1A, 0x8F, 0x3D, 0xCD, 0xAB, 0x89] =
    .ok (.iota 0x1A5B 0x89ABCD3D, 10) ∧
  decode [0xFD, 0xEE, 0x8F, 0xD2, 0x20] =
    .ok (.vvmerge 0x20D2, 5) ∧
  decode [0xFD, 0xEF, 0x8F, 0x49, 0x27, 0x8F, 0x3F, 0xCD, 0xAB, 0x89, 0x67, 0x45, 0x23, 0x01] =
    .ok (.vsmerge 0x2749 0x0123456789ABCD3F, 14) :=
  ⟨rfl, rfl, rfl, rfl, rfl, rfl, rfl, rfl, rfl, rfl, rfl, rfl, rfl, rfl⟩

theorem test_decode_control :
  decode [0xFD, 0x31, 0x8F, 0x77, 0x96, 0x5E] =
    .ok (.mfvp 0x9677 (.reg 14), 6) ∧
  decode [0xFD, 0xA8, 0x8F, 0xCE, 0x6B] =
    .ok (.vsync 0x6BCE, 5) ∧
  decode [0xFD, 0xA9, 0x8F, 0x45, 0x72, 0x8F, 0x23, 0xCD, 0xAB, 0x89] =
    .ok (.mtvp 0x7245 0x89ABCD23, 10) :=
  ⟨rfl, rfl, rfl⟩

/-! ### The assembler mnemonics: their words from R89, R90, R100, R116 and R117, and what those decode to -/

theorem test_decode_relations_l :
  decode [0xFD, 0xC0, 0x8F, 0xF0, 0x03] = .ok (.vvcmpl 0x03F0, 5) ∧
  encode (.vvgtrl .all 3 15) = [0xFD, 0xC0, 0x8F, 0xF0, 0x03] ∧
  decode [0xFD, 0xC0, 0x8F, 0xE1, 0x84] = .ok (.vvcmpl 0x84E1, 5) ∧
  encode (.vveqll .on0 4 14) = [0xFD, 0xC0, 0x8F, 0xE1, 0x84] ∧
  decode [0xFD, 0xC0, 0x8F, 0xD2, 0xC5] = .ok (.vvcmpl 0xC5D2, 5) ∧
  encode (.vvlssl .on1 5 13) = [0xFD, 0xC0, 0x8F, 0xD2, 0xC5] ∧
  decode [0xFD, 0xC0, 0x8F, 0xC4, 0x06] = .ok (.vvcmpl 0x06C4, 5) ∧
  encode (.vvleql .all 6 12) = [0xFD, 0xC0, 0x8F, 0xC4, 0x06] ∧
  decode [0xFD, 0xC0, 0x8F, 0xB5, 0x87] = .ok (.vvcmpl 0x87B5, 5) ∧
  encode (.vvneql .on0 7 11) = [0xFD, 0xC0, 0x8F, 0xB5, 0x87] ∧
  decode [0xFD, 0xC0, 0x8F, 0xA6, 0xC8] = .ok (.vvcmpl 0xC8A6, 5) ∧
  encode (.vvgeql .on1 8 10) = [0xFD, 0xC0, 0x8F, 0xA6, 0xC8] ∧
  decode [0xFD, 0xC1, 0x8F, 0x90, 0x80, 0x8F, 0x00, 0x00, 0xDE, 0xC0] = .ok (.vscmpl 0x8090 0xC0DE0000, 10) ∧
  encode (.vsgtrl .on0 0xC0DE0000 9) = [0xFD, 0xC1, 0x8F, 0x90, 0x80, 0x8F, 0x00, 0x00, 0xDE, 0xC0] ∧
  decode [0xFD, 0xC1, 0x8F, 0xA1, 0xC0, 0x8F, 0x01, 0x00, 0xDE, 0xC0] = .ok (.vscmpl 0xC0A1 0xC0DE0001, 10) ∧
  encode (.vseqll .on1 0xC0DE0001 10) = [0xFD, 0xC1, 0x8F, 0xA1, 0xC0, 0x8F, 0x01, 0x00, 0xDE, 0xC0] ∧
  decode [0xFD, 0xC1, 0x8F, 0xB2, 0x00, 0x8F, 0x02, 0x00, 0xDE, 0xC0] = .ok (.vscmpl 0x00B2 0xC0DE0002, 10) ∧
  encode (.vslssl .all 0xC0DE0002 11) = [0xFD, 0xC1, 0x8F, 0xB2, 0x00, 0x8F, 0x02, 0x00, 0xDE, 0xC0] ∧
  decode [0xFD, 0xC1, 0x8F, 0xC4, 0x80, 0x8F, 0x03, 0x00, 0xDE, 0xC0] = .ok (.vscmpl 0x80C4 0xC0DE0003, 10) ∧
  encode (.vsleql .on0 0xC0DE0003 12) = [0xFD, 0xC1, 0x8F, 0xC4, 0x80, 0x8F, 0x03, 0x00, 0xDE, 0xC0] ∧
  decode [0xFD, 0xC1, 0x8F, 0xD5, 0xC0, 0x8F, 0x04, 0x00, 0xDE, 0xC0] = .ok (.vscmpl 0xC0D5 0xC0DE0004, 10) ∧
  encode (.vsneql .on1 0xC0DE0004 13) = [0xFD, 0xC1, 0x8F, 0xD5, 0xC0, 0x8F, 0x04, 0x00, 0xDE, 0xC0] ∧
  decode [0xFD, 0xC1, 0x8F, 0xE6, 0x00, 0x8F, 0x05, 0x00, 0xDE, 0xC0] = .ok (.vscmpl 0x00E6 0xC0DE0005, 10) ∧
  encode (.vsgeql .all 0xC0DE0005 14) = [0xFD, 0xC1, 0x8F, 0xE6, 0x00, 0x8F, 0x05, 0x00, 0xDE, 0xC0] :=
  ⟨rfl, rfl, rfl, rfl, rfl, rfl, rfl, rfl, rfl, rfl, rfl, rfl, rfl, rfl, rfl, rfl, rfl, rfl, rfl, rfl, rfl, rfl, rfl, rfl⟩

theorem test_decode_relations_f :
  decode [0xFD, 0xC4, 0x8F, 0xF0, 0x03] = .ok (.vvcmpf 0x03F0, 5) ∧
  encode (.vvgtrf .all 3 15) = [0xFD, 0xC4, 0x8F, 0xF0, 0x03] ∧
  decode [0xFD, 0xC4, 0x8F, 0xE1, 0x84] = .ok (.vvcmpf 0x84E1, 5) ∧
  encode (.vveqlf .on0 4 14) = [0xFD, 0xC4, 0x8F, 0xE1, 0x84] ∧
  decode [0xFD, 0xC4, 0x8F, 0xD2, 0xC5] = .ok (.vvcmpf 0xC5D2, 5) ∧
  encode (.vvlssf .on1 5 13) = [0xFD, 0xC4, 0x8F, 0xD2, 0xC5] ∧
  decode [0xFD, 0xC4, 0x8F, 0xC4, 0x06] = .ok (.vvcmpf 0x06C4, 5) ∧
  encode (.vvleqf .all 6 12) = [0xFD, 0xC4, 0x8F, 0xC4, 0x06] ∧
  decode [0xFD, 0xC4, 0x8F, 0xB5, 0x87] = .ok (.vvcmpf 0x87B5, 5) ∧
  encode (.vvneqf .on0 7 11) = [0xFD, 0xC4, 0x8F, 0xB5, 0x87] ∧
  decode [0xFD, 0xC4, 0x8F, 0xA6, 0xC8] = .ok (.vvcmpf 0xC8A6, 5) ∧
  encode (.vvgeqf .on1 8 10) = [0xFD, 0xC4, 0x8F, 0xA6, 0xC8] ∧
  decode [0xFD, 0xC5, 0x8F, 0x90, 0x80, 0x8F, 0x00, 0x00, 0xDE, 0xC0] = .ok (.vscmpf 0x8090 0xC0DE0000, 10) ∧
  encode (.vsgtrf .on0 0xC0DE0000 9) = [0xFD, 0xC5, 0x8F, 0x90, 0x80, 0x8F, 0x00, 0x00, 0xDE, 0xC0] ∧
  decode [0xFD, 0xC5, 0x8F, 0xA1, 0xC0, 0x8F, 0x01, 0x00, 0xDE, 0xC0] = .ok (.vscmpf 0xC0A1 0xC0DE0001, 10) ∧
  encode (.vseqlf .on1 0xC0DE0001 10) = [0xFD, 0xC5, 0x8F, 0xA1, 0xC0, 0x8F, 0x01, 0x00, 0xDE, 0xC0] ∧
  decode [0xFD, 0xC5, 0x8F, 0xB2, 0x00, 0x8F, 0x02, 0x00, 0xDE, 0xC0] = .ok (.vscmpf 0x00B2 0xC0DE0002, 10) ∧
  encode (.vslssf .all 0xC0DE0002 11) = [0xFD, 0xC5, 0x8F, 0xB2, 0x00, 0x8F, 0x02, 0x00, 0xDE, 0xC0] ∧
  decode [0xFD, 0xC5, 0x8F, 0xC4, 0x80, 0x8F, 0x03, 0x00, 0xDE, 0xC0] = .ok (.vscmpf 0x80C4 0xC0DE0003, 10) ∧
  encode (.vsleqf .on0 0xC0DE0003 12) = [0xFD, 0xC5, 0x8F, 0xC4, 0x80, 0x8F, 0x03, 0x00, 0xDE, 0xC0] ∧
  decode [0xFD, 0xC5, 0x8F, 0xD5, 0xC0, 0x8F, 0x04, 0x00, 0xDE, 0xC0] = .ok (.vscmpf 0xC0D5 0xC0DE0004, 10) ∧
  encode (.vsneqf .on1 0xC0DE0004 13) = [0xFD, 0xC5, 0x8F, 0xD5, 0xC0, 0x8F, 0x04, 0x00, 0xDE, 0xC0] ∧
  decode [0xFD, 0xC5, 0x8F, 0xE6, 0x00, 0x8F, 0x05, 0x00, 0xDE, 0xC0] = .ok (.vscmpf 0x00E6 0xC0DE0005, 10) ∧
  encode (.vsgeqf .all 0xC0DE0005 14) = [0xFD, 0xC5, 0x8F, 0xE6, 0x00, 0x8F, 0x05, 0x00, 0xDE, 0xC0] :=
  ⟨rfl, rfl, rfl, rfl, rfl, rfl, rfl, rfl, rfl, rfl, rfl, rfl, rfl, rfl, rfl, rfl, rfl, rfl, rfl, rfl, rfl, rfl, rfl, rfl⟩

theorem test_decode_relations_d :
  decode [0xFD, 0xC6, 0x8F, 0xF0, 0x03] = .ok (.vvcmpd 0x03F0, 5) ∧
  encode (.vvgtrd .all 3 15) = [0xFD, 0xC6, 0x8F, 0xF0, 0x03] ∧
  decode [0xFD, 0xC6, 0x8F, 0xE1, 0x84] = .ok (.vvcmpd 0x84E1, 5) ∧
  encode (.vveqld .on0 4 14) = [0xFD, 0xC6, 0x8F, 0xE1, 0x84] ∧
  decode [0xFD, 0xC6, 0x8F, 0xD2, 0xC5] = .ok (.vvcmpd 0xC5D2, 5) ∧
  encode (.vvlssd .on1 5 13) = [0xFD, 0xC6, 0x8F, 0xD2, 0xC5] ∧
  decode [0xFD, 0xC6, 0x8F, 0xC4, 0x06] = .ok (.vvcmpd 0x06C4, 5) ∧
  encode (.vvleqd .all 6 12) = [0xFD, 0xC6, 0x8F, 0xC4, 0x06] ∧
  decode [0xFD, 0xC6, 0x8F, 0xB5, 0x87] = .ok (.vvcmpd 0x87B5, 5) ∧
  encode (.vvneqd .on0 7 11) = [0xFD, 0xC6, 0x8F, 0xB5, 0x87] ∧
  decode [0xFD, 0xC6, 0x8F, 0xA6, 0xC8] = .ok (.vvcmpd 0xC8A6, 5) ∧
  encode (.vvgeqd .on1 8 10) = [0xFD, 0xC6, 0x8F, 0xA6, 0xC8] ∧
  decode [0xFD, 0xC7, 0x8F, 0x90, 0x80, 0x8F, 0x00, 0x00, 0xAD, 0xDE, 0x00, 0x00, 0xDE,
    0xC0] = .ok (.vscmpd 0x8090 0xC0DE0000DEAD0000, 14) ∧
  encode (.vsgtrd .on0 0xC0DE0000DEAD0000 9) = [0xFD, 0xC7, 0x8F, 0x90, 0x80, 0x8F, 0x00, 0x00, 0xAD, 0xDE, 0x00,
    0x00, 0xDE, 0xC0] ∧
  decode [0xFD, 0xC7, 0x8F, 0xA1, 0xC0, 0x8F, 0x01, 0x00, 0xAD, 0xDE, 0x00, 0x00, 0xDE,
    0xC0] = .ok (.vscmpd 0xC0A1 0xC0DE0000DEAD0001, 14) ∧
  encode (.vseqld .on1 0xC0DE0000DEAD0001 10) = [0xFD, 0xC7, 0x8F, 0xA1, 0xC0, 0x8F, 0x01, 0x00, 0xAD, 0xDE, 0x00,
    0x00, 0xDE, 0xC0] ∧
  decode [0xFD, 0xC7, 0x8F, 0xB2, 0x00, 0x8F, 0x02, 0x00, 0xAD, 0xDE, 0x00, 0x00, 0xDE,
    0xC0] = .ok (.vscmpd 0x00B2 0xC0DE0000DEAD0002, 14) ∧
  encode (.vslssd .all 0xC0DE0000DEAD0002 11) = [0xFD, 0xC7, 0x8F, 0xB2, 0x00, 0x8F, 0x02, 0x00, 0xAD, 0xDE, 0x00,
    0x00, 0xDE, 0xC0] ∧
  decode [0xFD, 0xC7, 0x8F, 0xC4, 0x80, 0x8F, 0x03, 0x00, 0xAD, 0xDE, 0x00, 0x00, 0xDE,
    0xC0] = .ok (.vscmpd 0x80C4 0xC0DE0000DEAD0003, 14) ∧
  encode (.vsleqd .on0 0xC0DE0000DEAD0003 12) = [0xFD, 0xC7, 0x8F, 0xC4, 0x80, 0x8F, 0x03, 0x00, 0xAD, 0xDE, 0x00,
    0x00, 0xDE, 0xC0] ∧
  decode [0xFD, 0xC7, 0x8F, 0xD5, 0xC0, 0x8F, 0x04, 0x00, 0xAD, 0xDE, 0x00, 0x00, 0xDE,
    0xC0] = .ok (.vscmpd 0xC0D5 0xC0DE0000DEAD0004, 14) ∧
  encode (.vsneqd .on1 0xC0DE0000DEAD0004 13) = [0xFD, 0xC7, 0x8F, 0xD5, 0xC0, 0x8F, 0x04, 0x00, 0xAD, 0xDE, 0x00,
    0x00, 0xDE, 0xC0] ∧
  decode [0xFD, 0xC7, 0x8F, 0xE6, 0x00, 0x8F, 0x05, 0x00, 0xAD, 0xDE, 0x00, 0x00, 0xDE,
    0xC0] = .ok (.vscmpd 0x00E6 0xC0DE0000DEAD0005, 14) ∧
  encode (.vsgeqd .all 0xC0DE0000DEAD0005 14) = [0xFD, 0xC7, 0x8F, 0xE6, 0x00, 0x8F, 0x05, 0x00, 0xAD, 0xDE, 0x00,
    0x00, 0xDE, 0xC0] :=
  ⟨rfl, rfl, rfl, rfl, rfl, rfl, rfl, rfl, rfl, rfl, rfl, rfl, rfl, rfl, rfl, rfl, rfl, rfl, rfl, rfl, rfl, rfl, rfl, rfl⟩

theorem test_decode_relations_g :
  decode [0xFD, 0xC2, 0x8F, 0xF0, 0x03] = .ok (.vvcmpg 0x03F0, 5) ∧
  encode (.vvgtrg .all 3 15) = [0xFD, 0xC2, 0x8F, 0xF0, 0x03] ∧
  decode [0xFD, 0xC2, 0x8F, 0xE1, 0x84] = .ok (.vvcmpg 0x84E1, 5) ∧
  encode (.vveqlg .on0 4 14) = [0xFD, 0xC2, 0x8F, 0xE1, 0x84] ∧
  decode [0xFD, 0xC2, 0x8F, 0xD2, 0xC5] = .ok (.vvcmpg 0xC5D2, 5) ∧
  encode (.vvlssg .on1 5 13) = [0xFD, 0xC2, 0x8F, 0xD2, 0xC5] ∧
  decode [0xFD, 0xC2, 0x8F, 0xC4, 0x06] = .ok (.vvcmpg 0x06C4, 5) ∧
  encode (.vvleqg .all 6 12) = [0xFD, 0xC2, 0x8F, 0xC4, 0x06] ∧
  decode [0xFD, 0xC2, 0x8F, 0xB5, 0x87] = .ok (.vvcmpg 0x87B5, 5) ∧
  encode (.vvneqg .on0 7 11) = [0xFD, 0xC2, 0x8F, 0xB5, 0x87] ∧
  decode [0xFD, 0xC2, 0x8F, 0xA6, 0xC8] = .ok (.vvcmpg 0xC8A6, 5) ∧
  encode (.vvgeqg .on1 8 10) = [0xFD, 0xC2, 0x8F, 0xA6, 0xC8] ∧
  decode [0xFD, 0xC3, 0x8F, 0x90, 0x80, 0x8F, 0x00, 0x00, 0xAD, 0xDE, 0x00, 0x00, 0xDE,
    0xC0] = .ok (.vscmpg 0x8090 0xC0DE0000DEAD0000, 14) ∧
  encode (.vsgtrg .on0 0xC0DE0000DEAD0000 9) = [0xFD, 0xC3, 0x8F, 0x90, 0x80, 0x8F, 0x00, 0x00, 0xAD, 0xDE, 0x00,
    0x00, 0xDE, 0xC0] ∧
  decode [0xFD, 0xC3, 0x8F, 0xA1, 0xC0, 0x8F, 0x01, 0x00, 0xAD, 0xDE, 0x00, 0x00, 0xDE,
    0xC0] = .ok (.vscmpg 0xC0A1 0xC0DE0000DEAD0001, 14) ∧
  encode (.vseqlg .on1 0xC0DE0000DEAD0001 10) = [0xFD, 0xC3, 0x8F, 0xA1, 0xC0, 0x8F, 0x01, 0x00, 0xAD, 0xDE, 0x00,
    0x00, 0xDE, 0xC0] ∧
  decode [0xFD, 0xC3, 0x8F, 0xB2, 0x00, 0x8F, 0x02, 0x00, 0xAD, 0xDE, 0x00, 0x00, 0xDE,
    0xC0] = .ok (.vscmpg 0x00B2 0xC0DE0000DEAD0002, 14) ∧
  encode (.vslssg .all 0xC0DE0000DEAD0002 11) = [0xFD, 0xC3, 0x8F, 0xB2, 0x00, 0x8F, 0x02, 0x00, 0xAD, 0xDE, 0x00,
    0x00, 0xDE, 0xC0] ∧
  decode [0xFD, 0xC3, 0x8F, 0xC4, 0x80, 0x8F, 0x03, 0x00, 0xAD, 0xDE, 0x00, 0x00, 0xDE,
    0xC0] = .ok (.vscmpg 0x80C4 0xC0DE0000DEAD0003, 14) ∧
  encode (.vsleqg .on0 0xC0DE0000DEAD0003 12) = [0xFD, 0xC3, 0x8F, 0xC4, 0x80, 0x8F, 0x03, 0x00, 0xAD, 0xDE, 0x00,
    0x00, 0xDE, 0xC0] ∧
  decode [0xFD, 0xC3, 0x8F, 0xD5, 0xC0, 0x8F, 0x04, 0x00, 0xAD, 0xDE, 0x00, 0x00, 0xDE,
    0xC0] = .ok (.vscmpg 0xC0D5 0xC0DE0000DEAD0004, 14) ∧
  encode (.vsneqg .on1 0xC0DE0000DEAD0004 13) = [0xFD, 0xC3, 0x8F, 0xD5, 0xC0, 0x8F, 0x04, 0x00, 0xAD, 0xDE, 0x00,
    0x00, 0xDE, 0xC0] ∧
  decode [0xFD, 0xC3, 0x8F, 0xE6, 0x00, 0x8F, 0x05, 0x00, 0xAD, 0xDE, 0x00, 0x00, 0xDE,
    0xC0] = .ok (.vscmpg 0x00E6 0xC0DE0000DEAD0005, 14) ∧
  encode (.vsgeqg .all 0xC0DE0000DEAD0005 14) = [0xFD, 0xC3, 0x8F, 0xE6, 0x00, 0x8F, 0x05, 0x00, 0xAD, 0xDE, 0x00,
    0x00, 0xDE, 0xC0] :=
  ⟨rfl, rfl, rfl, rfl, rfl, rfl, rfl, rfl, rfl, rfl, rfl, rfl, rfl, rfl, rfl, rfl, rfl, rfl, rfl, rfl, rfl, rfl, rfl, rfl⟩

theorem test_decode_conversions :
  decode [0xFD, 0xEC, 0x8F, 0x2E, 0x01] = .ok (.vvcvt 0x012E, 5) ∧
  encode (.vvcvtlf false .all 2 14) = [0xFD, 0xEC, 0x8F, 0x2E, 0x01] ∧
  decode [0xFD, 0xEC, 0x8F, 0x3D, 0xA2] = .ok (.vvcvt 0xA23D, 5) ∧
  encode (.vvcvtld true .on0 3 13) = [0xFD, 0xEC, 0x8F, 0x3D, 0xA2] ∧
  decode [0xFD, 0xEC, 0x8F, 0x4C, 0xC3] = .ok (.vvcvt 0xC34C, 5) ∧
  encode (.vvcvtlg false .on1 4 12) = [0xFD, 0xEC, 0x8F, 0x4C, 0xC3] ∧
  decode [0xFD, 0xEC, 0x8F, 0x5B, 0x24] = .ok (.vvcvt 0x245B, 5) ∧
  encode (.vvcvtfl true .all 5 11) = [0xFD, 0xEC, 0x8F, 0x5B, 0x24] ∧
  decode [0xFD, 0xEC, 0x8F, 0x6A, 0x85] = .ok (.vvcvt 0x856A, 5) ∧
  encode (.vvcvtrfl false .on0 6 10) = [0xFD, 0xEC, 0x8F, 0x6A, 0x85] ∧
  decode [0xFD, 0xEC, 0x8F, 0x79, 0xE6] = .ok (.vvcvt 0xE679, 5) ∧
  encode (.vvcvtfd true .on1 7 9) = [0xFD, 0xEC, 0x8F, 0x79, 0xE6] ∧
  decode [0xFD, 0xEC, 0x8F, 0x88, 0x07] = .ok (.vvcvt 0x0788, 5) ∧
  encode (.vvcvtfg false .all 8 8) = [0xFD, 0xEC, 0x8F, 0x88, 0x07] ∧
  decode [0xFD, 0xEC, 0x8F, 0x97, 0xA8] = .ok (.vvcvt 0xA897, 5) ∧
  encode (.vvcvtdl true .on0 9 7) = [0xFD, 0xEC, 0x8F, 0x97, 0xA8] ∧
  decode [0xFD, 0xEC, 0x8F, 0xA6, 0xC9] = .ok (.vvcvt 0xC9A6, 5) ∧
  encode (.vvcvtdf false .on1 10 6) = [0xFD, 0xEC, 0x8F, 0xA6, 0xC9] ∧
  decode [0xFD, 0xEC, 0x8F, 0xB5, 0x2A] = .ok (.vvcvt 0x2AB5, 5) ∧
  encode (.vvcvtrdl true .all 11 5) = [0xFD, 0xEC, 0x8F, 0xB5, 0x2A] ∧
  decode [0xFD, 0xEC, 0x8F, 0xC4, 0x8C] = .ok (.vvcvt 0x8CC4, 5) ∧
  encode (.vvcvtgl false .on0 12 4) = [0xFD, 0xEC, 0x8F, 0xC4, 0x8C] ∧
  decode [0xFD, 0xEC, 0x8F, 0xD3, 0xED] = .ok (.vvcvt 0xEDD3, 5) ∧
  encode (.vvcvtgf true .on1 13 3) = [0xFD, 0xEC, 0x8F, 0xD3, 0xED] ∧
  decode [0xFD, 0xEC, 0x8F, 0xE2, 0x0F] = .ok (.vvcvt 0x0FE2, 5) ∧
  encode (.vvcvtrgl false .all 14 2) = [0xFD, 0xEC, 0x8F, 0xE2, 0x0F] :=
  ⟨rfl, rfl, rfl, rfl, rfl, rfl, rfl, rfl, rfl, rfl, rfl, rfl, rfl, rfl, rfl, rfl, rfl, rfl, rfl, rfl, rfl, rfl, rfl,
    rfl, rfl, rfl⟩

theorem test_decode_control_mnemonics :
  decode [0xFD, 0x31, 0x8F, 0x00, 0x00, 0x50] = .ok (.mfvp 0 (.reg 0), 6) ∧
  encode (.mfvcr (.reg 0)) = [0xFD, 0x31, 0x8F, 0x00, 0x00, 0x50] ∧
  decode [0xFD, 0x31, 0x8F, 0x01, 0x00, 0x51] = .ok (.mfvp 1 (.reg 1), 6) ∧
  encode (.mfvlr (.reg 1)) = [0xFD, 0x31, 0x8F, 0x01, 0x00, 0x51] ∧
  decode [0xFD, 0x31, 0x8F, 0x02, 0x00, 0x52] = .ok (.mfvp 2 (.reg 2), 6) ∧
  encode (.mfvmrlo (.reg 2)) = [0xFD, 0x31, 0x8F, 0x02, 0x00, 0x52] ∧
  decode [0xFD, 0x31, 0x8F, 0x03, 0x00, 0x53] = .ok (.mfvp 3 (.reg 3), 6) ∧
  encode (.mfvmrhi (.reg 3)) = [0xFD, 0x31, 0x8F, 0x03, 0x00, 0x53] ∧
  decode [0xFD, 0x31, 0x8F, 0x04, 0x00, 0x54] = .ok (.mfvp 4 (.reg 4), 6) ∧
  encode (.synch (.reg 4)) = [0xFD, 0x31, 0x8F, 0x04, 0x00, 0x54] ∧
  decode [0xFD, 0x31, 0x8F, 0x05, 0x00, 0x55] = .ok (.mfvp 5 (.reg 5), 6) ∧
  encode (.msynch (.reg 5)) = [0xFD, 0x31, 0x8F, 0x05, 0x00, 0x55] ∧
  decode [0xFD, 0xA9, 0x8F, 0x00, 0x00, 0x8F, 0x40, 0x00, 0x00, 0x00] = .ok (.mtvp 0 0x40, 10) ∧
  encode (.mtvcr 0x40) = [0xFD, 0xA9, 0x8F, 0x00, 0x00, 0x8F, 0x40, 0x00, 0x00, 0x00] ∧
  decode [0xFD, 0xA9, 0x8F, 0x01, 0x00, 0x8F, 0x41, 0x00, 0x00, 0x00] = .ok (.mtvp 1 0x41, 10) ∧
  encode (.mtvlr 0x41) = [0xFD, 0xA9, 0x8F, 0x01, 0x00, 0x8F, 0x41, 0x00, 0x00, 0x00] ∧
  decode [0xFD, 0xA9, 0x8F, 0x02, 0x00, 0x8F, 0x42, 0x00, 0x00, 0x00] = .ok (.mtvp 2 0x42, 10) ∧
  encode (.mtvmrlo 0x42) = [0xFD, 0xA9, 0x8F, 0x02, 0x00, 0x8F, 0x42, 0x00, 0x00, 0x00] ∧
  decode [0xFD, 0xA9, 0x8F, 0x03, 0x00, 0x8F, 0x43, 0x00, 0x00, 0x00] = .ok (.mtvp 3 0x43, 10) ∧
  encode (.mtvmrhi 0x43) = [0xFD, 0xA9, 0x8F, 0x03, 0x00, 0x8F, 0x43, 0x00, 0x00, 0x00] ∧
  decode [0xFD, 0xA8, 0x8F, 0x00, 0x00] = .ok (.vsync 0, 5) ∧
  encode (.vsynch) = [0xFD, 0xA8, 0x8F, 0x00, 0x00] :=
  ⟨rfl, rfl, rfl, rfl, rfl, rfl, rfl, rfl, rfl, rfl, rfl, rfl, rfl, rfl, rfl, rfl, rfl, rfl, rfl, rfl, rfl, rfl⟩

/-- R160's two spellings of VSYNCH, short literal and immediate regnum: one instruction (log 46). -/
theorem test_decode_vsync_both_modes :
    decode [0xFD, 0xA8, 0x00] = .ok (.vsync 0, 3) ∧ decode [0xFD, 0xA8, 0x8F, 0x00, 0x00] = .ok (.vsync 0, 5) := ⟨rfl, rfl⟩

theorem test_decode_merge_spellings :
  decode [0xFD, 0xEF, 0x8F, 0x23, 0x40, 0x8F, 0x80, 0x40, 0x00, 0x00, 0x00, 0x00, 0x00,
    0x00] = .ok (.vsmerge 0x4023 0x4080, 14) ∧
  encode (.vsmergef true 0x4080 2 3) = [0xFD, 0xEF, 0x8F, 0x23, 0x40, 0x8F, 0x80, 0x40, 0x00, 0x00, 0x00, 0x00, 0x00,
    0x00] ∧
  decode [0xFD, 0xEF, 0x8F, 0xFE, 0x00, 0x8F, 0x80, 0x40, 0x00, 0x00, 0x00, 0x00, 0x00,
    0x00] = .ok (.vsmerge 0x00FE 0x4080, 14) ∧
  encode (.vsmerged false 0x4080 15 14) = [0xFD, 0xEF, 0x8F, 0xFE, 0x00, 0x8F, 0x80, 0x40, 0x00, 0x00, 0x00, 0x00,
    0x00, 0x00] ∧
  decode [0xFD, 0xEF, 0x8F, 0x81, 0x40, 0x8F, 0x80, 0x40, 0x00, 0x00, 0x00, 0x00, 0x00,
    0x00] = .ok (.vsmerge 0x4081 0x4080, 14) ∧
  encode (.vsmergeg true 0x4080 8 1) = [0xFD, 0xEF, 0x8F, 0x81, 0x40, 0x8F, 0x80, 0x40, 0x00, 0x00, 0x00, 0x00, 0x00,
    0x00] :=
  ⟨rfl, rfl, rfl, rfl, rfl, rfl⟩

/-- Bytes that are no instruction are refused by name (R102; E57), and so are values that only a step can read; R15 is a place
for a result like any register (R83). -/
theorem test_decode_refusals :
    decode [0xFD, 0x32, 0x8F, 0, 0] = .error .unknownOpcode ∧ decode [0x80, 0xFD, 0x8F, 0, 0] = .error .unknownOpcode ∧
    decode [] = .error .noInstruction ∧ decode [0xFD] = .error .truncated ∧
      decode [0xFD, 0x80, 0x8F, 0] = .error .truncated ∧
    decode [0xFD, 0x34, 0x8F, 0, 0, 0x51, 0x01] = .error .modeNotAllowed ∧
    decode [0xFD, 0x31, 0x8F, 0, 0, 0x5F] = .ok (.mfvp 0 (.reg 15), 6) ∧
    decode [0xFD, 0xA9, 0x01, 0x52] = .error .needsScalarState := ⟨rfl, rfl, rfl, rfl, rfl, rfl, rfl, rfl⟩

/-- A table-numbered word: FD in bits 7:0, the second opcode byte in bits 15:8, operand words of zeros (R12, R81). -/
theorem test_decode_table_word :
    decodeTableWord 16 0x80FD = some (.vvaddl 0) ∧ decodeTableWord 16 0x31FD = some (.mfvp 0 (.reg 0)) ∧
    decodeTableWord 16 0xEFFD = some (.vsmerge 0 0) ∧ decodeTableWord 16 0x9EFD = some (.vstq 0 0 0) ∧
    decodeTableWord 32 0x012380FD = some (.vvaddl 0x0123) ∧ decodeTableWord 16 0x32FD = none := ⟨rfl, rfl, rfl, rfl,
      rfl, rfl⟩

/-- The step after reset with a table-numbered word placed runs that instruction. -/
theorem test_with_fetch_word :
    next (fun s => s.pc) (step (State.reset.withFetchWord 16 0xA8FD)) = some 5 ∧
    next (fun s => s.pc) (step (State.reset.withFetchWord 16 0x36FD)) = some 15 ∧
    reason (step (State.reset.withFetchWord 16 0xECFD)) = some .reservedCvtFunc := by decide +kernel

/-! ### The assembler (E2, E5, E10, E13 to E22, E26, E28; R115) -/

theorem test_assemble :
    assemble .vvdivd ⟨some .u, some true⟩ [.vreg 15, .vreg 14, .vreg 13] = some (.vvdivd 0xEFED) ∧
    assemble .vssubl ⟨some .v, some true⟩ [.long 100, .vreg 7, .vreg 8] = some (.vssubl 0xE078 100) ∧
    assemble .vsneqg ⟨none, some true⟩ [.quad 0x4010, .vreg 2] = some (.vscmpg 0xC025 0x4010) ∧
    assemble .vvcvtrgl ⟨some .u, some false⟩ [.vreg 10, .vreg 11] = some (.vvcvt 0xAFAB) ∧
    assemble .vvmerge ⟨none, none⟩ [.vreg 1, .vreg 2, .vreg 3] = some (.vvmerge 0x4123) ∧
    assemble .vvmerge ⟨none, some false⟩ [.vreg 1, .vreg 2, .vreg 3] = some (.vvmerge 0x0123) ∧
    assemble .vsmerged ⟨none, some true⟩ [.quad 0x4080, .vreg 2, .vreg 3] = some (.vsmerge 0x4023 0x4080) ∧
    assemble .iota ⟨none, none⟩ [.long 4, .vreg 5] = some (.iota 0x4005 4) ∧
    assemble .iota ⟨none, some false⟩ [.long 8, .vreg 5] = some (.iota 0x0005 8) ∧
    assemble .vldq ⟨some .m, some true⟩ [.addr 0x2000, .long 8, .vreg 4] = some (.vldq 0xE004 0x2000 8) ∧
    assemble .vgathl ⟨some .m, none⟩ [.addr 0x1000, .vreg 1, .vreg 2] = some (.vgathl 0x2012 0x1000) ∧
    assemble .vstl ⟨none, some false⟩ [.vreg 6, .addr 0x3000, .long 4] = some (.vstl 0x8006 0x3000 4) ∧
    assemble .vscatq ⟨none, none⟩ [.vreg 2, .addr 0x2000, .vreg 1] = some (.vscatq 0x0012 0x2000) ∧
    assemble .mtvlr ⟨none, none⟩ [.long 64] = some (.mtvp 1 64) ∧
    assemble .vsynch ⟨none, none⟩ [] = some (.vsync 0) :=
  ⟨rfl, rfl, rfl, rfl, rfl, rfl, rfl, rfl, rfl, rfl, rfl, rfl, rfl, rfl, rfl⟩

/-- A letter that has no bit to set is refused (R115). -/
theorem test_assemble_refuses :
    assemble .vvbisl ⟨some .v, none⟩ [.vreg 1, .vreg 2, .vreg 3] = none ∧
    assemble .vvaddf ⟨some .v, none⟩ [.vreg 1, .vreg 2, .vreg 3] = none ∧
    assemble .vstl ⟨some .m, none⟩ [.vreg 6, .addr 0x3000, .long 4] = none := ⟨rfl, rfl, rfl⟩

/-! ### One step per instruction -/

/-- T1 -/
theorem test_iota_default : next (fun s => (lows 5 4 s, s.vcr)) (run [0xFD, 0xED, 0x8F, 0x05, 0x40, 0x8F, 0x04, 0x00,
    0x00, 0x00]
      (start 8 0xB2)) =
    some ([0x4, 0x10, 0x14, 0x1C], 4) := by decide +kernel

/-- T2 -/
theorem test_iota_on0 : next (fun s => (lows 5 4 s, s.vcr)) (run [0xFD, 0xED, 0x8F, 0x05, 0x00, 0x8F, 0x04, 0x00,
    0x00, 0x00]
      (start 8 0xB2)) =
    some ([0x0, 0x8, 0xC, 0x18], 4) := by decide +kernel

/-- T6 (R152) -/
theorem test_mtvp_vlr : next (fun s => (s.vlr, s.pc)) (run [0xFD, 0xA9, 0x8F, 0x01, 0x00, 0x8F, 0x40, 0x00, 0x00, 0x00]
      (start 0 0x0)) =
    some (64, 10) := by decide +kernel

/-- T6 (R154) -/
theorem test_mtvp_vmrhi : next (fun s => s.vmr) (run [0xFD, 0xA9, 0x8F, 0x03, 0x00, 0x8F, 0x67, 0x45, 0x23, 0x01]
      (start 0 0x89ABCDEF)) =
    some 0x0123456789ABCDEF := by decide +kernel

/-- T6 (R151, R153) -/
theorem test_mtvcr_mtvmrlo : next (fun s => s.vcr) (exec (.mtvcr 9) (start 0 0)) = some 9 ∧
    next (fun s => s.vmr) (exec (.mtvmrlo 0x89ABCDEF) (start 0 0x0123456700000000)) = some 0x0123456789ABCDEF ∧
    next (fun s => s.vlr) (exec (.mtvlr 64) (start 0 0)) = some 64 ∧
    next (fun s => s.vmr) (exec (.mtvmrhi 0x01234567) (start 0 0xFFFFFFFF89ABCDEF)) = some 0x0123456789ABCDEF := by
  decide +kernel

/-- T6 (R143 to R146) -/
theorem test_mfvp : next (fun s => s.reg 0) (run [0xFD, 0x31, 0x8F, 0x01, 0x00, 0x50] (start 64 0)) = some 0x40 ∧
    next (fun s => s.reg 1) (run [0xFD, 0x31, 0x8F, 0x00, 0x00, 0x51] { start 0 0 with vcr := 9 }) = some 9 ∧
    next (fun s => s.reg 2) (run [0xFD, 0x31, 0x8F, 0x02, 0x00, 0x52] (start 0 0x0123456789ABCDEF)) = some 0x89ABCDEF ∧
    next (fun s => s.reg 3) (run [0xFD, 0x31, 0x8F, 0x03, 0x00, 0x53] (start 0 0x0123456789ABCDEF))
      = some 0x01234567 := by
  decide +kernel

/-- T6 (R141, R143 to R146) with memory destinations, little-endian (R51, R142) -/
theorem test_mfvp_mnemonics :
    next (bytes 0x1000 4) (exec (.mfvmrlo (.mem 0x1000)) (start 0 0x0123456789ABCDEF)) = some [0xEF, 0xCD, 0xAB, 0x89] ∧
    next (bytes 0x1000 4) (exec (.mfvmrhi (.mem 0x1000)) (start 0 0x0123456789ABCDEF)) = some [0x67, 0x45, 0x23, 0x01] ∧
    next (bytes 0x1001 4) (exec (.mfvlr (.mem 0x1001)) (start 64 0)) = some [0x40, 0, 0, 0] ∧
    next (fun s => s.reg 14) (exec (.mfvcr (.reg 14)) { start 0 0 with vcr := 127 }) = some 127 := by decide +kernel

/-- T7: SYNCH, MSYNCH and VSYNCH change no vector state -/
theorem test_synch :
    next (fun s => (lows 1 4 s, s.vmr, s.draws)) (run [0xFD, 0x31, 0x8F, 0x04, 0x00, 0x50] (withLows 1 [1, 2, 3,
      4] (start 4 0xA))) =
      some ([1, 2, 3, 4], 0xA, 1) ∧
    next (fun s => (lows 1 4 s, s.vmr, s.draws)) (exec (.msynch (.reg 1)) (withLows 1 [1, 2, 3, 4] (start 4 0xA))) =
      some ([1, 2, 3, 4], 0xA, 1) ∧
    next (fun s => (lows 1 4 s, s.vmr, s.draws)) (exec (.synch (.reg 1)) (withLows 1 [1, 2, 3, 4] (start 4 0xA))) =
      some ([1, 2, 3, 4], 0xA, 1) ∧
    next (fun s => (lows 1 4 s, s.vmr, s.pc)) (run [0xFD, 0xA8, 0x8F, 0x00, 0x00] (withLows 1 [1, 2, 3,
      4] (start 4 0xA))) =
      some ([1, 2, 3, 4], 0xA, 5) ∧
    next (fun s => (lows 1 4 s, s.vmr, s.draws)) (exec .vsynch (withLows 1 [1, 2, 3, 4] (start 4 0xA))) =
      some ([1, 2, 3, 4], 0xA, 0) := by decide +kernel

/-- T10 -/
theorem test_vvaddf : next (lows 2 4) (run [0xFD, 0x84, 0x8F, 0x12, 0x00]
      (withLows 2 [0x99, 0x99, 0x99, 0x99] (withLows 1 [0x4100, 0x40C0, 0x4080] (withLows 0 [0x4080, 0x40C0,
        0xC080] (start 3 0x0))))) =
    some [0x4140, 0x4140, 0x0, 0x99] := by decide +kernel

/-- T11 -/
theorem test_vvaddf_masked : next (lows 2 3) (run [0xFD, 0x84, 0x8F, 0x12, 0xC0]
      (withLows 2 [0x99, 0x99, 0x99] (withLows 1 [0x4100, 0x40C0, 0x4080] (withLows 0 [0x4080, 0x8000,
        0xC080] (start 3 0x5))))) =
    some [0x4140, 0x99, 0x0] := by decide +kernel

/-- by hand from R173, R42: 1.0 + 2.0 -/
theorem test_vsaddf : next (lows 2 1) (run [0xFD, 0x85, 0x8F, 0x12, 0x00, 0x8F, 0x80, 0x40, 0x00, 0x00]
      (withLows 1 [0x4100] (start 1 0x0))) =
    some [0x4140] := by decide +kernel

/-- by hand from R174, R43: 1.0 + 2.0 -/
theorem test_vvaddd : next (quads 2 1) (run [0xFD, 0x86, 0x8F, 0x12, 0x00]
      (withQuads 1 [0x4100] (withQuads 0 [0x4080] (start 1 0x0)))) =
    some [0x4140] := by decide +kernel

/-- by hand from R175, R43: 1.0 + (1.0 + 2^-55) -/
theorem test_vsaddd : next (quads 2 1) (run [0xFD, 0x87, 0x8F, 0x12, 0x00, 0x8F, 0x80, 0x40, 0x00, 0x00, 0x00, 0x00,
    0x00, 0x00]
      (withQuads 1 [0x1000000004080] (start 1 0x0))) =
    some [0x1000000004100] := by decide +kernel

/-- by hand from R176, R44: 1.0 + 2.0 -/
theorem test_vvaddg : next (quads 2 1) (run [0xFD, 0x82, 0x8F, 0x12, 0x00]
      (withQuads 1 [0x4020] (withQuads 0 [0x4010] (start 1 0x0)))) =
    some [0x4028] := by decide +kernel

/-- by hand from R177, R44: -1.0 + 1.0 -/
theorem test_vsaddg : next (quads 2 1) (run [0xFD, 0x83, 0x8F, 0x12, 0x00, 0x8F, 0x10, 0xC0, 0x00, 0x00, 0x00, 0x00,
    0x00, 0x00]
      (withQuads 2 [0x99] (withQuads 1 [0x4010] (start 1 0x0)))) =
    some [0x0] := by decide +kernel

/-- by hand from R200, R42: 1.0 - 2.0 -/
theorem test_vvsubf : next (lows 2 1) (run [0xFD, 0x8C, 0x8F, 0x12, 0x00]
      (withLows 1 [0x4100] (withLows 0 [0x4080] (start 1 0x0)))) =
    some [0xC080] := by decide +kernel

/-- by hand from R201, R42: 3.0 - 1.5 -/
theorem test_vssubf : next (lows 2 1) (run [0xFD, 0x8D, 0x8F, 0x12, 0x00, 0x8F, 0x40, 0x41, 0x00, 0x00]
      (withLows 1 [0x40C0] (start 1 0x0))) =
    some [0x40C0] := by decide +kernel

/-- by hand from R202, R43: 1.0 - 2.0 -/
theorem test_vvsubd : next (quads 2 1) (run [0xFD, 0x8E, 0x8F, 0x12, 0x00]
      (withQuads 1 [0x4100] (withQuads 0 [0x4080] (start 1 0x0)))) =
    some [0xC080] := by decide +kernel

/-- T17 -/
theorem test_vssubd : next (quads 1 2) (run [0xFD, 0x8F, 0x8F, 0x11, 0x00, 0x8F, 0x40, 0x41, 0x00, 0x00, 0x00, 0x00,
    0x00, 0x00]
      (withQuads 1 [0x4080, 0x41A0] (start 2 0x0))) =
    some [0x4100, 0xC100] := by decide +kernel

/-- T19 -/
theorem test_vvsubg_reserved : raised (run [0xFD, 0x8A, 0x8F, 0x12, 0xA0]
      (withQuads 2 [0x99, 0x99] (withQuads 1 [0x4010, 0x4010] (withQuads 0 [0x4028, 0x8000] (start 2 0x0))))) =
    some (.floatingReservedOperand, 1) := by decide +kernel

/-- by hand from R204, R44: 3.0 - 1.0 -/
theorem test_vvsubg : next (quads 2 1) (run [0xFD, 0x8A, 0x8F, 0x12, 0x00]
      (withQuads 1 [0x4010] (withQuads 0 [0x4028] (start 1 0x0)))) =
    some [0x4020] := by decide +kernel

/-- by hand from R205, R44: 1.0 - 3.0 -/
theorem test_vssubg : next (quads 2 1) (run [0xFD, 0x8B, 0x8F, 0x12, 0x00, 0x8F, 0x10, 0x40, 0x00, 0x00, 0x00, 0x00,
    0x00, 0x00]
      (withQuads 1 [0x4028] (start 1 0x0))) =
    some [0xC020] := by decide +kernel

/-- T12 -/
theorem test_vvmulf_underflow_off : next (lows 1 1) (run [0xFD, 0xA4, 0x8F, 0x01, 0x00]
      (withLows 1 [0x99] (withLows 0 [0xE80] (start 1 0x0)))) =
    some [0x0] := by decide +kernel

/-- T13 -/
theorem test_vvmulf_underflow_on : raised (run [0xFD, 0xA4, 0x8F, 0x01, 0x20]
      (withLows 1 [0x99] (withLows 0 [0xE80] (start 1 0x0)))) =
    some (.floatingUnderflow, 0) := by decide +kernel

/-- P4: 1.5 times 1.0, 2.0, 3.0 -/
theorem test_vsmulf : next (lows 1 3) (run [0xFD, 0xA5, 0x8F, 0x11, 0x00, 0x8F, 0xC0, 0x40, 0x00, 0x00]
      (withLows 1 [0x4080, 0x4100, 0x4140] (start 3 0x0))) =
    some [0x40C0, 0x4140, 0x4190] := by decide +kernel

/-- T18 -/
theorem test_vvmuld : next (quads 2 2) (run [0xFD, 0xA6, 0x8F, 0x12, 0x80]
      (withQuads 2 [0x99, 0x99] (withQuads 1 [0x4140, 0x4140] (withQuads 0 [0x4100, 0x4100] (start 2 0x2))))) =
    some [0x41C0, 0x99] := by decide +kernel

/-- by hand from R193, R43: -2.0 times 3.0 -/
theorem test_vsmuld : next (quads 2 1) (run [0xFD, 0xA7, 0x8F, 0x12, 0x00, 0x8F, 0x00, 0xC1, 0x00, 0x00, 0x00, 0x00,
    0x00, 0x00]
      (withQuads 1 [0x4140] (start 1 0x0))) =
    some [0xC1C0] := by decide +kernel

/-- by hand from R194, R44: 2.0 times 3.0 -/
theorem test_vvmulg : next (quads 2 1) (run [0xFD, 0xA2, 0x8F, 0x12, 0x00]
      (withQuads 1 [0x4028] (withQuads 0 [0x4020] (start 1 0x0)))) =
    some [0x4038] := by decide +kernel

/-- by hand from R195, R44: 1.5 times 4.0 -/
theorem test_vsmulg : next (quads 2 1) (run [0xFD, 0xA3, 0x8F, 0x12, 0x00, 0x8F, 0x18, 0x40, 0x00, 0x00, 0x00, 0x00,
    0x00, 0x00]
      (withQuads 1 [0x4030] (start 1 0x0))) =
    some [0x4038] := by decide +kernel

/-- T15 -/
theorem test_vvdivf_zero : raised (run [0xFD, 0xAC, 0x8F, 0x12, 0x00]
      (withLows 2 [0x99, 0x99] (withLows 1 [0x4100, 0x0] (withLows 0 [0x4140, 0x4080] (start 2 0x0))))) =
    some (.floatingDivideByZero, 1) := by decide +kernel

/-- T15, element 0 -/
theorem test_vvdivf : next (lows 2 1) (run [0xFD, 0xAC, 0x8F, 0x12, 0x00]
      (withLows 1 [0x4100] (withLows 0 [0x4140] (start 1 0x0)))) =
    some [0x40C0] := by decide +kernel

/-- by hand from R181, R42: 1.0 / 2.0 -/
theorem test_vsdivf : next (lows 2 1) (run [0xFD, 0xAD, 0x8F, 0x12, 0x00, 0x8F, 0x80, 0x40, 0x00, 0x00]
      (withLows 1 [0x4100] (start 1 0x0))) =
    some [0x4000] := by decide +kernel

/-- by hand from R182, R43: 6.0 / 2.0 -/
theorem test_vvdivd : next (quads 2 1) (run [0xFD, 0xAE, 0x8F, 0x12, 0x00]
      (withQuads 1 [0x4100] (withQuads 0 [0x41C0] (start 1 0x0)))) =
    some [0x4140] := by decide +kernel

/-- by hand from R183, R43: 3.0 / 2.0 -/
theorem test_vsdivd : next (quads 2 1) (run [0xFD, 0xAF, 0x8F, 0x12, 0x00, 0x8F, 0x40, 0x41, 0x00, 0x00, 0x00, 0x00,
    0x00, 0x00]
      (withQuads 1 [0x4100] (start 1 0x0))) =
    some [0x40C0] := by decide +kernel

/-- by hand from R184, R44: 6.0 / 4.0 -/
theorem test_vvdivg : next (quads 2 1) (run [0xFD, 0xAA, 0x8F, 0x12, 0x00]
      (withQuads 1 [0x4030] (withQuads 0 [0x4038] (start 1 0x0)))) =
    some [0x4018] := by decide +kernel

/-- T16 -/
theorem test_vsdivg : next (quads 2 2) (run [0xFD, 0xAB, 0x8F, 0x12, 0x00, 0x8F, 0x38, 0x40, 0x00, 0x00, 0x00, 0x00,
    0x00, 0x00]
      (withQuads 1 [0x4030, 0xC020] (start 2 0x0))) =
    some [0x4018, 0xC028] := by decide +kernel

/-- T20 -/
theorem test_vvaddl : next (lows 3 3) (run [0xFD, 0x80, 0x8F, 0x23, 0x01]
      (withLows 2 [0x7, 0x1, 0xFFFFFFFF] (withLows 1 [0x5, 0x7FFFFFFF, 0x80000000] (start 3 0x0)))) =
    some [0xC, 0x80000000, 0x7FFFFFFF] := by decide +kernel

/-- T21 -/
theorem test_vvaddl_overflow : raised (run [0xFD, 0x80, 0x8F, 0x23, 0x21]
      (withLows 2 [0x7, 0x1, 0xFFFFFFFF] (withLows 1 [0x5, 0x7FFFFFFF, 0x80000000] (start 3 0x0)))) =
    some (.integerOverflow, 1) := by decide +kernel

/-- T24 -/
theorem test_vsaddl : next (lows 1 4) (run [0xFD, 0x81, 0x8F, 0x11, 0x80, 0x8F, 0x10, 0x00, 0x00, 0x00]
      (withLows 1 [0x1, 0x2, 0x3, 0x4] (start 4 0x6))) =
    some [0x11, 0x2, 0x3, 0x14] := by decide +kernel

/-- by hand from R226: Va - Vb -/
theorem test_vvsubl : next (lows 2 2) (run [0xFD, 0x88, 0x8F, 0x12, 0x00]
      (withLows 1 [0x7, 0x80000000] (withLows 0 [0x5, 0x0] (start 2 0x0)))) =
    some [0xFFFFFFFE, 0x80000000] := by decide +kernel

/-- T22 -/
theorem test_vssubl : next (lows 2 3) (run [0xFD, 0x89, 0x8F, 0x12, 0x00, 0x8F, 0x00, 0x00, 0x00, 0x00]
      (withLows 1 [0x1, 0xFFFFFFFF, 0x80000000] (start 3 0x0))) =
    some [0xFFFFFFFF, 0x1, 0x80000000] := by decide +kernel

/-- T23 -/
theorem test_vvmull : next (lows 3 2) (run [0xFD, 0xA0, 0x8F, 0x23, 0x01]
      (withLows 2 [0xFFFFFFF9, 0x10000] (withLows 1 [0x6, 0x10000] (start 2 0x0)))) =
    some [0xFFFFFFD6, 0x0] := by decide +kernel

/-- T23 -/
theorem test_vsmull : next (lows 4 2) (run [0xFD, 0xA1, 0x8F, 0x24, 0x00, 0x8F, 0x03, 0x00, 0x00, 0x00]
      (withLows 2 [0xFFFFFFF9, 0x10000] (start 2 0x0))) =
    some [0xFFFFFFEB, 0x30000] := by decide +kernel

/-- T30 -/
theorem test_vvbisl : next (quads 3 1) (run [0xFD, 0xC8, 0x8F, 0x23, 0x01]
      (withQuads 2 [0x2222222212345678] (withQuads 1 [0x111111110000FFFF] (start 1 0x0)))) =
    some [0x222222221234FFFF] := by decide +kernel

/-- T30 -/
theorem test_vvxorl : next (quads 4 1) (run [0xFD, 0xE8, 0x8F, 0x24, 0x01]
      (withQuads 2 [0x2222222212345678] (withQuads 1 [0x111111110000FFFF] (start 1 0x0)))) =
    some [0x222222221234A987] := by decide +kernel

/-- T30 -/
theorem test_vvbicl : next (quads 5 1) (run [0xFD, 0xCC, 0x8F, 0x25, 0x01]
      (withQuads 2 [0x2222222212345678] (withQuads 1 [0x111111110000FFFF] (start 1 0x0)))) =
    some [0x2222222212340000] := by decide +kernel

/-- T31 -/
theorem test_vsbicl : next (quads 2 2) (run [0xFD, 0xCD, 0x8F, 0x22, 0xC0, 0x8F, 0x00, 0x00, 0x00, 0xFF]
      (withQuads 2 [0x7ABCDEF01, 0x8ABCDEF01] (start 2 0x1))) =
    some [0x700CDEF01, 0x8ABCDEF01] := by decide +kernel

/-- by hand from R244 -/
theorem test_vsbisl : next (quads 3 1) (run [0xFD, 0xC9, 0x8F, 0x23, 0x00, 0x8F, 0xFF, 0x00, 0x00, 0x00]
      (withQuads 2 [0x2222222212345600] (start 1 0x0))) =
    some [0x22222222123456FF] := by decide +kernel

/-- by hand from R245 -/
theorem test_vsxorl : next (quads 3 1) (run [0xFD, 0xE9, 0x8F, 0x23, 0x00, 0x8F, 0xFF, 0xFF, 0xFF, 0xFF]
      (withQuads 2 [0x222222220F0F0F0F] (start 1 0x0))) =
    some [0x22222222F0F0F0F0] := by decide +kernel

/-- T32 -/
theorem test_vvsrll : next (lows 3 4) (run [0xFD, 0xE0, 0x8F, 0x23, 0x01]
      (withLows 2 [0x80000010, 0x80000010, 0x80000010, 0x80000010] (withLows 1 [0x0, 0x4, 0x1F, 0x24] (start 4 0x0)))) =
    some [0x80000010, 0x8000001, 0x1, 0x8000001] := by decide +kernel

/-- T32 -/
theorem test_vvslll : next (lows 4 4) (run [0xFD, 0xE4, 0x8F, 0x24, 0x01]
      (withLows 2 [0x80000010, 0x80000010, 0x80000010, 0x80000010] (withLows 1 [0x0, 0x4, 0x1F, 0x24] (start 4 0x0)))) =
    some [0x80000010, 0x100, 0x0, 0x100] := by decide +kernel

/-- T33 -/
theorem test_vssrll : next (lows 3 1) (run [0xFD, 0xE1, 0x8F, 0x23, 0x00, 0x8F, 0x10, 0x00, 0x00, 0x00]
      (withLows 2 [0x12345679] (start 1 0x0))) =
    some [0x1234] := by decide +kernel

/-- T33 -/
theorem test_vsslll : next (lows 4 1) (run [0xFD, 0xE5, 0x8F, 0x24, 0x00, 0x8F, 0x1F, 0x00, 0x00, 0x00]
      (withLows 2 [0x12345679] (start 1 0x0))) =
    some [0x80000000] := by decide +kernel

/-- T40 -/
theorem test_vvcmpf : next (fun s => s.vmr) (run [0xFD, 0xC4, 0x8F, 0x12, 0x00]
      (withLows 1 [0x4100, 0x4100, 0xC100, 0x0] (withLows 0 [0x4080, 0x4100, 0xC080, 0x4140] (start 4 0xF)))) =
    some 0b00000001 := by decide +kernel

/-- T41 -/
theorem test_vvcmpf_on1 : next (fun s => s.vmr) (run [0xFD, 0xC4, 0x8F, 0x16, 0xC0]
      (withLows 1 [0x4100, 0x4100, 0xC100, 0x0] (withLows 0 [0x4080, 0x4100, 0xC080, 0x4140] (start 4 0x3)))) =
    some 0b0010 := by decide +kernel

/-- by hand from R274, R42: 2.0 against 1.0, 2.0, -2.0, 3.0, GTR -/
theorem test_vscmpf : next (fun s => s.vmr) (run [0xFD, 0xC5, 0x8F, 0x00, 0x00, 0x8F, 0x00, 0x41, 0x00, 0x00]
      (withLows 0 [0x4080, 0x4100, 0xC100, 0x4140] (start 4 0x0))) =
    some 0b0101 := by decide +kernel

/-- P5, step 3 -/
theorem test_vvcmpd : next (fun s => s.vmr) (run [0xFD, 0xC6, 0x8F, 0x10, 0x00]
      (withQuads 1 [0x4100, 0x4140] (withQuads 0 [0x4080, 0x41A0] (start 2 0x0)))) =
    some 0b10 := by decide +kernel

/-- T44 -/
theorem test_vscmpd : next (fun s => s.vmr) (run [0xFD, 0xC7, 0x8F, 0x14, 0x00, 0x8F, 0x00, 0x41, 0x00, 0x00, 0x00,
    0x00, 0x00, 0x00]
      (withQuads 1 [0x4080, 0x4100, 0x4140] (start 3 0x0))) =
    some 0b110 := by decide +kernel

/-- by hand from R277, R44: 1.0 and 3.0 against 2.0, LSS -/
theorem test_vvcmpg : next (fun s => s.vmr) (run [0xFD, 0xC2, 0x8F, 0x12, 0x00]
      (withQuads 1 [0x4020, 0x4020] (withQuads 0 [0x4010, 0x4028] (start 2 0x0)))) =
    some 0b01 := by decide +kernel

/-- T45 -/
theorem test_vscmpg : next (fun s => s.vmr) (run [0xFD, 0xC3, 0x8F, 0x15, 0x00, 0x8F, 0x10, 0x40, 0x00, 0x00, 0x00,
    0x00, 0x00, 0x00]
      (withQuads 1 [0x4010, 0xC010] (start 2 0x0))) =
    some 0b10 := by decide +kernel

/-- T43 -/
theorem test_vvcmpf_reserved : raised (run [0xFD, 0xC4, 0x8F, 0x11, 0x00]
      (withLows 1 [0x4100, 0x8000] (withLows 0 [0x4080, 0x4080] (start 2 0x3)))) =
    some (.floatingReservedOperand, 1) := by decide +kernel

/-- T46 -/
theorem test_vvcmpl : next (fun s => s.vmr) (run [0xFD, 0xC0, 0x8F, 0x12, 0x00]
      (withLows 1 [0x2, 0x1, 0x7FFFFFFF, 0x5] (withLows 0 [0x1, 0xFFFFFFFF, 0x80000000, 0x5] (start 4 0x0)))) =
    some 0b0111 := by decide +kernel

/-- T47 -/
theorem test_vscmpl : next (fun s => s.vmr) (run [0xFD, 0xC1, 0x8F, 0x10, 0x00, 0x8F, 0x00, 0x00, 0x00, 0x00]
      (withLows 1 [0x1, 0xFFFFFFFF, 0x0, 0x80000000] (start 4 0x0))) =
    some 0b1010 := by decide +kernel

/-- by hand from R271: less, equal and greater, under each relation (R279, R294) -/
theorem test_vv_relations_l :
    [.vvgtrl .all 0 1, .vveqll .all 0 1, .vvlssl .all 0 1, .vvleql .all 0 1, .vvneql .all 0 1,
      .vvgeql .all 0 1].map (fun i => next (fun s => s.vmr)
      (exec i (withLows 1 [0x2, 0x2, 0x80000000] (withLows 0 [0x1, 0x2, 0xFFFFFFFF] (start 3 0x0))))) =
    [some 4, some 2, some 1, some 3, some 5, some 6] := by decide +kernel

/-- by hand from R271: the scalar less than, equal to and greater than an element; `/1` with mask 110 leaves bit 0 alone
(R279, R294) -/
theorem test_vs_relations_l :
    [.vsgtrl .on1 0x2 1, .vseqll .on1 0x2 1, .vslssl .on1 0x2 1, .vsleql .on1 0x2 1, .vsneql .on1 0x2 1,
      .vsgeql .on1 0x2 1].map (fun i => next (fun s => s.vmr)
      (exec i (withLows 1 [0x3, 0x2, 0xFFFFFFFE] (start 3 0x6)))) =
    [some 4, some 2, some 0, some 2, some 4, some 6] := by decide +kernel

/-- by hand from R271: less, equal and greater, under each relation (R279, R294) -/
theorem test_vv_relations_f :
    [.vvgtrf .all 0 1, .vveqlf .all 0 1, .vvlssf .all 0 1, .vvleqf .all 0 1, .vvneqf .all 0 1,
      .vvgeqf .all 0 1].map (fun i => next (fun s => s.vmr)
      (exec i (withLows 1 [0x4100, 0x4100, 0xC100] (withLows 0 [0x4080, 0x4100, 0xC080] (start 3 0x0))))) =
    [some 4, some 2, some 1, some 3, some 5, some 6] := by decide +kernel

/-- by hand from R271: the scalar less than, equal to and greater than an element; `/1` with mask 110 leaves bit 0 alone
(R279, R294) -/
theorem test_vs_relations_f :
    [.vsgtrf .on1 0x4100 1, .vseqlf .on1 0x4100 1, .vslssf .on1 0x4100 1, .vsleqf .on1 0x4100 1,
      .vsneqf .on1 0x4100 1, .vsgeqf .on1 0x4100 1].map (fun i => next (fun s => s.vmr)
      (exec i (withLows 1 [0x4140, 0x4100, 0xC100] (start 3 0x6)))) =
    [some 4, some 2, some 0, some 2, some 4, some 6] := by decide +kernel

/-- by hand from R271: less, equal and greater, under each relation (R279, R294) -/
theorem test_vv_relations_d :
    [.vvgtrd .all 0 1, .vveqld .all 0 1, .vvlssd .all 0 1, .vvleqd .all 0 1, .vvneqd .all 0 1,
      .vvgeqd .all 0 1].map (fun i => next (fun s => s.vmr)
      (exec i (withQuads 1 [0x4100, 0x4100, 0xC100] (withQuads 0 [0x4080, 0x4100, 0xC080] (start 3 0x0))))) =
    [some 4, some 2, some 1, some 3, some 5, some 6] := by decide +kernel

/-- by hand from R271: the scalar less than, equal to and greater than an element; `/1` with mask 110 leaves bit 0 alone
(R279, R294) -/
theorem test_vs_relations_d :
    [.vsgtrd .on1 0x4100 1, .vseqld .on1 0x4100 1, .vslssd .on1 0x4100 1, .vsleqd .on1 0x4100 1,
      .vsneqd .on1 0x4100 1, .vsgeqd .on1 0x4100 1].map (fun i => next (fun s => s.vmr)
      (exec i (withQuads 1 [0x4140, 0x4100, 0xC100] (start 3 0x6)))) =
    [some 4, some 2, some 0, some 2, some 4, some 6] := by decide +kernel

/-- by hand from R271: less, equal and greater, under each relation (R279, R294) -/
theorem test_vv_relations_g :
    [.vvgtrg .all 0 1, .vveqlg .all 0 1, .vvlssg .all 0 1, .vvleqg .all 0 1, .vvneqg .all 0 1,
      .vvgeqg .all 0 1].map (fun i => next (fun s => s.vmr)
      (exec i (withQuads 1 [0x4020, 0x4020, 0xC020] (withQuads 0 [0x4010, 0x4020, 0xC010] (start 3 0x0))))) =
    [some 4, some 2, some 1, some 3, some 5, some 6] := by decide +kernel

/-- by hand from R271: the scalar less than, equal to and greater than an element; `/1` with mask 110 leaves bit 0 alone
(R279, R294) -/
theorem test_vs_relations_g :
    [.vsgtrg .on1 0x4020 1, .vseqlg .on1 0x4020 1, .vslssg .on1 0x4020 1, .vsleqg .on1 0x4020 1,
      .vsneqg .on1 0x4020 1, .vsgeqg .on1 0x4020 1].map (fun i => next (fun s => s.vmr)
      (exec i (withQuads 1 [0x4028, 0x4020, 0xC020] (start 3 0x6)))) =
    [some 4, some 2, some 0, some 2, some 4, some 6] := by decide +kernel

/-- T50 -/
theorem test_vldl : next (lows 1 4) (run [0xFD, 0x34, 0x8F, 0x01, 0x20, 0x9F, 0x00, 0x10, 0x00, 0x00, 0x8F, 0x04,
    0x00, 0x00, 0x00]
      (withBytes 0x1000 [0x1, 0x0, 0x0, 0x0, 0x2, 0x0, 0x0, 0x0, 0x3, 0x0, 0x0, 0x0, 0x4, 0x0, 0x0, 0x0] (start 4 0x0))) =
    some [0x1, 0x2, 0x3, 0x4] := by decide +kernel

/-- T63 -/
theorem test_vldl_wrap : next (lows 1 2) (run [0xFD, 0x34, 0x8F, 0x01, 0x00, 0x9F, 0xFC, 0xFF, 0xFF, 0xFF, 0x8F,
    0x04, 0x00, 0x00, 0x00]
      (withBytes 0x0 [0x44, 0x33, 0x22, 0x11] (withBytes 0xFFFFFFFC [0xDD, 0xCC, 0xBB, 0xAA] (start 2 0x0)))) =
    some [0xAABBCCDD, 0x11223344] := by decide +kernel

/-- T53 -/
theorem test_vldq : next (quads 3 2) (run [0xFD, 0x36, 0x8F, 0x03, 0x00, 0x9F, 0x00, 0x10, 0x00, 0x00, 0x8F, 0x10,
    0x00, 0x00, 0x00]
      (withBytes 0x1000 [0x10, 0x11, 0x12, 0x13, 0x14, 0x15, 0x16, 0x17, 0x18, 0x19, 0x1A, 0x1B, 0x1C, 0x1D, 0x1E,
        0x1F, 0x20, 0x21, 0x22, 0x23, 0x24, 0x25, 0x26, 0x27, 0x28, 0x29, 0x2A, 0x2B, 0x2C, 0x2D, 0x2E,
        0x2F] (start 2 0x0))) =
    some [0x1716151413121110, 0x2726252423222120] := by decide +kernel

/-- T59 -/
theorem test_vldl_unaligned : raised (run [0xFD, 0x34, 0x8F, 0x01, 0x00, 0x9F, 0x02, 0x10, 0x00, 0x00, 0x8F, 0x04,
    0x00, 0x00, 0x00]
      (withBytes 0x1000 [0x1, 0x0, 0x0, 0x0, 0x2, 0x0, 0x0, 0x0, 0x3, 0x0, 0x0, 0x0, 0x4, 0x0, 0x0, 0x0] (start 2 0x0))) =
    some (.vectorAlignment 0x1002, 0) := by decide +kernel

/-- T54 -/
theorem test_vgathl : next (lows 2 3) (run [0xFD, 0x35, 0x8F, 0x12, 0x00, 0x9F, 0x00, 0x10, 0x00, 0x00]
      (withBytes 0x1000 [0x1, 0x0, 0x0, 0x0, 0x2, 0x0, 0x0, 0x0, 0x3, 0x0, 0x0, 0x0, 0x4, 0x0, 0x0,
        0x0] (withLows 1 [0x8, 0x0, 0x4] (start 3 0x0)))) =
    some [0x3, 0x1, 0x2] := by decide +kernel

/-- T55 -/
theorem test_vgathq : next (quads 1 2) (run [0xFD, 0x37, 0x8F, 0x11, 0x00, 0x9F, 0x00, 0x10, 0x00, 0x00]
      (withBytes 0x1000 [0x1, 0x0, 0x0, 0x0, 0x2, 0x0, 0x0, 0x0, 0x3, 0x0, 0x0, 0x0, 0x4, 0x0, 0x0,
        0x0] (withLows 1 [0x8, 0x0] (start 2 0x0)))) =
    some [0x400000003, 0x200000001] := by decide +kernel

/-- T56 -/
theorem test_vstl : next (bytes 0x3000 8) (run [0xFD, 0x9C, 0x8F, 0x01, 0x00, 0x9F, 0x00, 0x30, 0x00, 0x00, 0x8F,
    0x04, 0x00, 0x00, 0x00]
      (withLows 1 [0x11223344, 0x55667788] (start 2 0x0))) =
    some [0x44, 0x33, 0x22, 0x11, 0x88, 0x77, 0x66, 0x55] := by decide +kernel

/-- T58 -/
theorem test_vstl_masked : next (bytes 0x3000 12) (run [0xFD, 0x9C, 0x8F, 0x01, 0x80, 0x9F, 0x00, 0x30, 0x00, 0x00,
    0x8F, 0x04, 0x00, 0x00, 0x00]
      (withBytes 0x3000 [0xEE, 0xEE, 0xEE, 0xEE, 0xEE, 0xEE, 0xEE, 0xEE, 0xEE, 0xEE, 0xEE, 0xEE] (withLows 1 [0xA1,
        0xA2, 0xA3] (start 3 0x2)))) =
    some [0xA1, 0x0, 0x0, 0x0, 0xEE, 0xEE, 0xEE, 0xEE, 0xA3, 0x0, 0x0, 0x0] := by decide +kernel

/-- T56 -/
theorem test_vstq : next (bytes 0x3010 16) (run [0xFD, 0x9E, 0x8F, 0x02, 0x00, 0x9F, 0x10, 0x30, 0x00, 0x00, 0x8F,
    0x08, 0x00, 0x00, 0x00]
      (withQuads 2 [0x11223344556677, 0x8899AABBCCDDEEFF] (start 2 0x0))) =
    some [0x77, 0x66, 0x55, 0x44, 0x33, 0x22, 0x11, 0x0, 0xFF, 0xEE, 0xDD, 0xCC, 0xBB, 0xAA, 0x99,
      0x88] := by decide +kernel

/-- T60 -/
theorem test_vstq_unaligned : raised (run [0xFD, 0x9E, 0x8F, 0x02, 0x00, 0x9F, 0x08, 0x30, 0x00, 0x00, 0x8F, 0x0C,
    0x00, 0x00, 0x00]
      (withQuads 2 [0x1, 0x2] (start 2 0x0))) =
    some (.vectorAlignment 0x3014, 1) := by decide +kernel

/-- T57 -/
theorem test_vscatl : next (bytes 0x2000 8) (run [0xFD, 0x9D, 0x8F, 0x12, 0x00, 0x9F, 0x00, 0x20, 0x00, 0x00]
      (withLows 2 [0xAA, 0xBB, 0xCC] (withLows 1 [0x4, 0x0, 0x4] (start 3 0x0)))) =
    some [0xBB, 0x0, 0x0, 0x0, 0xCC, 0x0, 0x0, 0x0] := by decide +kernel

/-- by hand from R306, R51 -/
theorem test_vscatq : next (bytes 0x2008 8) (run [0xFD, 0x9F, 0x8F, 0x12, 0x00, 0x9F, 0x00, 0x20, 0x00, 0x00]
      (withQuads 2 [0x8877665544332211] (withLows 1 [0x8] (start 1 0x0)))) =
    some [0x11, 0x22, 0x33, 0x44, 0x55, 0x66, 0x77, 0x88] := by decide +kernel

/-- T61 and T62: what `access_check` answers (R60) -/
theorem test_access_check :
    raised (exec (.vstl 0x0001 0x3000 4) { withLows 1 [0xA1, 0xA2, 0xA3, 0xA4] (start 4 0) with
      access := [⟨0x3008, 0xFFFFFFFF, none, none, .translationNotValid⟩] }) = some (.translationNotValid 0x3008, 2) ∧
    raised (exec (.vstl 0x0001 0x1000 4) { start 1 0 with access := [⟨0, 0xFFFFFFFF, none, none, .modify⟩] }) =
      some (.modify 0x1000, 0) ∧
    next (lows 1 1) (exec (.vldl 0x2001 0x1000 4) { withBytes 0x1000 [1, 0, 0, 0] (start 1 0) with
      access := [⟨0, 0xFFFFFFFF, none, none, .modify⟩] }) = some [1] := by decide +kernel

/-- Device space and the program text are refused by name (R58, R64) -/
theorem test_refused_space :
    reason (exec (.vldl 0x0001 0x1000 4) { start 1 0 with devices := [⟨0x1003, 0x1003⟩] }) = some (.deviceSpace 0x1000) ∧
    reason (run [0xFD, 0x9C, 0x8F, 0x01, 0x00, 0x9F, 0x0C, 0x00, 0x00, 0x00, 0x8F, 0x04, 0x00, 0x00, 0x00] (start 1 0)) =
      some (.storeToProgramText 0x0C) := by decide +kernel

/-- Operand modes of R83 other than those the decoder reads whole: a literal, a register, a displacement off a register, and
an address in autoincrement mode -/
theorem test_operand_modes :
    next (fun s => s.vlr) (run [0xFD, 0xA9, 0x01, 0x52] ((start 0 0).setReg 2 33)) = some 33 ∧
    next (fun s => s.vlr) (run [0xFD, 0xA9, 0x01, 0xA2, 0xFF] (withBytes 0x1000 [17] ((start 0 0).setReg 2 0x1001))) =
      some 17 ∧
    next (fun s => (lows 1 1 s, s.reg 3)) (run [0xFD, 0x34, 0x01, 0x83, 0x04]
      (withBytes 0x1000 [9, 8, 7, 6] ((start 1 0).setReg 3 0x1000))) = some ([0x06070809], 0x1001) := by decide +kernel

/-- By hand from R83 and R32, R15 reading as the address of the byte after the specifier: a displacement off R15, R15 itself and
`(R15)` as the source of MTVLR, R15 as the high half of a quadword at R14, and a result sent to R15. -/
theorem test_operand_r15 :
    next (fun s => s.vlr) (run [0xFD, 0xA9, 0x01, 0xAF, 0x0B] (withBytes 0x10 [17] (start 0 0))) = some 17 ∧
    next (fun s => s.vlr) (run [0xFD, 0xA9, 0x01, 0x5F] (start 0 0)) = some 4 ∧
    next (fun s => s.vlr) (run [0xFD, 0xA9, 0x01, 0x6F] (withBytes 0x04 [33] (start 0 0))) = some 33 ∧
    next (quads 1 1) (run [0xFD, 0xEF, 0x8F, 0x01, 0x00, 0x5E] ((start 1 0).setReg 14 0xABCD)) =
      some [0x000000060000ABCD] ∧
    next (fun s => (s.pc, s.r)) (run [0xFD, 0x31, 0x01, 0x5F] (start 9 0)) = some (4, (start 9 0).r) ∧
    reason (run [0xFD, 0xEF, 0x8F, 0x01, 0x00, 0x5F] (start 1 0)) = some (.undecodable .quadwordAtR15) := by
  decide +kernel

/-- Index mode over a base that updates the index register: the index is the value before the update (log 36), so the address is
5 times R2, and R2 is updated. -/
theorem test_operand_index_updated :
    next (fun s => (s.vlr, s.reg 2)) (run [0xFD, 0xA9, 0x01, 0x42, 0x82]
      (withBytes 0x500 [17] ((start 0 0).setReg 2 0x100))) = some (17, 0x104) := by decide +kernel

/-- Index mode over index mode (R83): `(R2)[R3][R4]` is at R2 + 4 * R3 + 4 * R4; an index over a literal, a register or an
immediate constant has no address. -/
theorem test_operand_index_nested :
    next (fun s => s.vlr) (run [0xFD, 0xA9, 0x01, 0x44, 0x43, 0x62]
      (withBytes 0x118 [17] ((((start 0 0).setReg 2 0x100).setReg 3 4).setReg 4 2))) = some 17 ∧
    reason (run [0xFD, 0xA9, 0x01, 0x44, 0x43] (start 0 0)) = some (.undecodable .truncated) ∧
    [0x3F, 0x52, 0x8F].map (fun b => reason (run [0xFD, 0xA9, 0x01, 0x44, b, 0, 0, 0, 0] (start 0 0))) =
      List.replicate 3 (some (.undecodable .modeNotAllowed)) := by decide +kernel

/-- T70 -/
theorem test_vvmerge : next (quads 3 5) (run [0xFD, 0xEE, 0x8F, 0x23, 0x41]
      (withQuads 3 [0x99, 0x99, 0x99, 0x99, 0x99] (withQuads 2 [0xB0, 0xB1, 0xB2, 0xB3] (withQuads 1 [0xA0, 0xA1,
        0xA2, 0xA3] (start 4 0x5))))) =
    some [0xA0, 0xB1, 0xA2, 0xB3, 0x99] := by decide +kernel

/-- T71 -/
theorem test_vvmerge_on0 : next (quads 3 5) (run [0xFD, 0xEE, 0x8F, 0x23, 0x01]
      (withQuads 3 [0x99, 0x99, 0x99, 0x99, 0x99] (withQuads 2 [0xB0, 0xB1, 0xB2, 0xB3] (withQuads 1 [0xA0, 0xA1,
        0xA2, 0xA3] (start 4 0x5))))) =
    some [0xB0, 0xA1, 0xB2, 0xA3, 0x99] := by decide +kernel

/-- T72 -/
theorem test_vsmerge : next (quads 2 4) (run [0xFD, 0xEF, 0x8F, 0x22, 0x40, 0x8F, 0x80, 0x40, 0x00, 0x00, 0x00, 0x00,
    0x00, 0x00]
      (withQuads 3 [0x99, 0x99, 0x99, 0x99, 0x99] (withQuads 2 [0xB0, 0xB1, 0xB2, 0xB3] (withQuads 1 [0xA0, 0xA1,
        0xA2, 0xA3] (start 4 0x3))))) =
    some [0x4080, 0x4080, 0xB2, 0xB3] := by decide +kernel

/-- T72 under the three spellings of R343 -/
theorem test_merge_spellings :
    [Instr.vsmergef true 0x4080 2 2, .vsmerged true 0x4080 2 2, .vsmergeg true 0x4080 2 2].map (fun i => next (quads 2 4)
      (exec i (withQuads 3 [0x99, 0x99, 0x99, 0x99, 0x99] (withQuads 2 [0xB0, 0xB1, 0xB2, 0xB3] (withQuads 1 [0xA0,
        0xA1, 0xA2, 0xA3] (start 4 0x3)))))) =
    [some [0x4080, 0x4080, 0xB2, 0xB3], some [0x4080, 0x4080, 0xB2, 0xB3], some [0x4080, 0x4080, 0xB2, 0xB3]] := by
  decide +kernel

/-- T80 -/
theorem test_vvcvtlf : next (lows 2 6) (exec (.vvcvtlf false .all 1 2)
      (withLows 1 [0x1, 0xFFFFFFFF, 0x64, 0x1000001, 0x7FFFFFFF, 0x80000000] (start 6 0x0))) =
    some [0x4080, 0xC080, 0x43C8, 0x14C80, 0x5000, 0xD000] := by decide +kernel

/-- T81 -/
theorem test_vvcvtld : next (quads 2 3) (exec (.vvcvtld false .all 1 2)
      (withLows 1 [0x64, 0xFFFFFFFE, 0x7FFFFFFF] (start 3 0x0))) =
    some [0x43C8, 0xC100, 0xFE00FFFF4FFF] := by decide +kernel

/-- T82 -/
theorem test_vvcvtlg : next (quads 2 3) (exec (.vvcvtlg false .all 1 2)
      (withLows 1 [0x64, 0xFFFFFFFE, 0x7FFFFFFF] (start 3 0x0))) =
    some [0x4079, 0xC020, 0xFFC0FFFF41FF] := by decide +kernel

/-- T83 -/
theorem test_vvcvtfl : next (lows 2 6) (exec (.vvcvtfl false .all 1 2)
      (withLows 1 [0x40C0, 0xC0C0, 0x4120, 0xD000, 0x5000, 0x15080] (start 6 0x0))) =
    some [0x1, 0xFFFFFFFF, 0x2, 0x80000000, 0x80000000, 0x200] := by decide +kernel

/-- T85 -/
theorem test_vvcvtrfl : next (lows 2 5) (exec (.vvcvtrfl false .all 1 2)
      (withLows 1 [0x40C0, 0xC0C0, 0x4120, 0x3F80, 0x4000] (start 5 0x0))) =
    some [0x2, 0xFFFFFFFE, 0x3, 0x0, 0x1] := by decide +kernel

/-- T86 -/
theorem test_vvcvtfd : next (quads 2 2) (exec (.vvcvtfd false .all 1 2)
      (withLows 1 [0x40C0, 0xCCCD3ECC] (start 2 0x0))) =
    some [0x40C0, 0xCCCD3ECC] := by decide +kernel

/-- T87 -/
theorem test_vvcvtfg : next (quads 2 3) (exec (.vvcvtfg false .all 1 2)
      (withLows 1 [0x40C0, 0x4080, 0xC080] (start 3 0x0))) =
    some [0x4018, 0x4010, 0xC010] := by decide +kernel

/-- T88 -/
theorem test_vvcvtdl : next (lows 2 3) (exec (.vvcvtdl false .all 1 2)
      (withQuads 1 [0x4120, 0xC120, 0xFF00FFFF4FFF] (start 3 0x0))) =
    some [0x2, 0xFFFFFFFE, 0x7FFFFFFF] := by decide +kernel

/-- T89 -/
theorem test_vvcvtdf : next (lows 2 3) (exec (.vvcvtdf false .all 1 2)
      (withQuads 1 [0x40C0, 0x800000004080, 0x400000004080] (start 3 0x0))) =
    some [0x40C0, 0x14080, 0x4080] := by decide +kernel

/-- T91 -/
theorem test_vvcvtrdl : next (lows 2 3) (exec (.vvcvtrdl false .all 1 2)
      (withQuads 1 [0x4120, 0xC120, 0xFF00FFFF4FFF] (start 3 0x0))) =
    some [0x3, 0xFFFFFFFD, 0x80000000] := by decide +kernel

/-- T92 -/
theorem test_vvcvtgl : next (lows 2 3) (exec (.vvcvtgl false .all 1 2)
      (withQuads 1 [0x4024, 0xC024, 0xC0005A0B4206] (start 3 0x0))) =
    some [0x2, 0xFFFFFFFE, 0xB2D05E00] := by decide +kernel

/-- T93 -/
theorem test_vvcvtgf : next (lows 2 2) (exec (.vvcvtgf false .all 1 2)
      (withQuads 1 [0x4018, 0x3390] (start 2 0x0))) =
    some [0x40C0, 0x0] := by decide +kernel

/-- T96 -/
theorem test_vvcvtrgl : next (lows 2 3) (exec (.vvcvtrgl false .all 1 2)
      (withQuads 1 [0x4024, 0xC024, 0x4018] (start 3 0x0))) =
    some [0x3, 0xFFFFFFFD, 0x2] := by decide +kernel

/-- T84 -/
theorem test_vvcvt_integer_overflow : raised (run [0xFD, 0xEC, 0x8F, 0x12, 0x24]
      (withLows 1 [0x40C0, 0x5000, 0x4080] (start 3 0x0))) =
    some (.integerOverflow, 1) := by decide +kernel

/-- T90 -/
theorem test_vvcvt_overflow : raised (run [0xFD, 0xEC, 0x8F, 0x12, 0x09]
      (withQuads 1 [0xFFFFFFFFFFFF7FFF] (start 1 0x0))) =
    some (.floatingOverflow, 0) := by decide +kernel

/-! ### Witnesses: concrete states and operands that meet the hypotheses of each statement -/

/-- Some next state. -/
theorem next_of_isSome {o : Outcome} (h : next (fun _ => ()) o = some ()) : ∃ t, o = .next t := by
  cases o with
  | next s => exact ⟨s, rfl⟩
  | fault r => cases h
  | refused r => cases h

/-- Some fault of this exception and element. -/
theorem fault_of_raised {o : Outcome} {e : Exc} {i : ElemIx} (h : raised o = some (e, i)) :
    ∃ left, o = .fault (.raised e i left) := by
  cases o with
  | next s => cases h
  | refused r => cases h
  | fault r =>
    cases r with
    | raised e' i' left => cases h; exact ⟨left, rfl⟩
    | scalarOperand a x => cases h

/-- `StoresFloat` as a test. -/
def storesFloat (exc : Bool) {w : Nat} : FPResult w → Bool
  | .value _ => true
  | .underflow => !exc
  | _ => false

theorem stores_float_iff (exc : Bool) {w : Nat} (r : FPResult w) : StoresFloat exc r ↔ storesFloat exc r = true := by
  cases r <;> simp [StoresFloat, storesFloat]

/-- `StoresCvt` as a test. -/
def storesCvt (exc : Bool) {w : Nat} : CvtResult w → Bool
  | .value _ => true
  | .underflow => !exc
  | .integerOverflow _ => !exc
  | _ => false

theorem stores_cvt_iff (exc : Bool) {w : Nat} (r : CvtResult w) : StoresCvt exc r ↔ storesCvt exc r = true := by
  cases r <;> simp [StoresCvt, storesCvt]

/-- UnlistedOpcodesRefused: a first byte other than FD, and a second byte next to a listed one. -/
theorem witness_UnlistedOpcodesRefused :
    ({ State.reset with text := [0xFC, 0x80, 0x8F] }).fetchBytes = [0xFC, 0x80, 0x8F] ∧ (0xFC : Byte) ≠ 0xFD ∧
    ({ State.reset with text := [0xFD, 0x32] }).fetchBytes = [0xFD, 0x32] ∧
    (0x32 : Byte).toNat ∉
      [0x31, 0x34, 0x35, 0x36, 0x37, 0x80, 0x81, 0x82, 0x83, 0x84, 0x85, 0x86, 0x87, 0x88, 0x89, 0x8A, 0x8B, 0x8C, 0x8D,
      0x8E, 0x8F, 0x9C, 0x9D, 0x9E, 0x9F, 0xA0, 0xA1, 0xA2, 0xA3, 0xA4, 0xA5, 0xA6, 0xA7, 0xA8, 0xA9, 0xAA, 0xAB, 0xAC,
      0xAD, 0xAE, 0xAF, 0xC0, 0xC1, 0xC2, 0xC3, 0xC4, 0xC5, 0xC6, 0xC7, 0xC8, 0xC9, 0xCC, 0xCD, 0xE0, 0xE1, 0xE4, 0xE5,
      0xE8, 0xE9, 0xEC, 0xED, 0xEE, 0xEF] := by decide +kernel

theorem witness_ControlWordFields : (0xEFFF : Cntrl).getLsbD 12 = false ∧ (0x0000 : Cntrl).getLsbD 12 = false := by decide

/-- QualifiersSetControlWord: both clauses, with and without qualifiers. -/
theorem witness_QualifiersSetControlWord :
    assemble .iota ⟨none, some false⟩ [.long 8, .vreg 5] = some (.iota 0x0005 8) ∧
      (Instr.iota 0x0005 8).cntrl = some 0x0005 ∧
    assemble .vvdivd ⟨some .u, some true⟩ [.vreg 15, .vreg 14, .vreg 13] = some (.vvdivd 0xEFED) ∧
    assemble .vvaddl ⟨none, none⟩ [.vreg 1, .vreg 2, .vreg 3] = some (.vvaddl 0x0123) := ⟨rfl, rfl, rfl, rfl⟩

theorem witness_AssemblerRefusesOtherLetters :
    assemble .vvsubg ⟨some .u, some false⟩ [.vreg 0, .vreg 1, .vreg 2] = some (.vvsubg 0xA012) ∧
    assemble .vvcvtlf ⟨some .u, none⟩ [.vreg 1, .vreg 2] = some (.vvcvt 0x2112) ∧
    assemble .vvaddl ⟨some .v, none⟩ [.vreg 0, .vreg 1, .vreg 2] = some (.vvaddl 0x2012) ∧
    assemble .vldl ⟨some .m, none⟩ [.addr 0, .long 4, .vreg 1] = some (.vldl 0x2001 0 4) ∧
    assemble .vgathq ⟨some .m, none⟩ [.addr 0, .vreg 1, .vreg 1] = some (.vgathq 0x2011 0) ∧
    assemble .mfvlr ⟨none, none⟩ [.dest (.reg 0)] = some (.mfvp 1 (.reg 0)) ∧
    assemble .vvbisl ⟨none, some true⟩ [.vreg 0, .vreg 1, .vreg 2] = some (.vvbisl 0xC012) :=
  ⟨rfl, rfl, rfl, rfl, rfl, rfl, rfl⟩

/-- MoveFromRegisters and SynchDeliversDrawnValue: a register, and a longword at the top of memory. -/
theorem witness_MoveFromRegisters :
    Memory.wf (withBytes 0x1000 [1, 2] (start 4 3)).mem = true ∧ Deliverable (start 4 3) (.reg 14) ∧
    Deliverable (start 4 3) (.mem 0xFFFFFFFC) := by
  refine ⟨by decide +kernel, trivial, ?_⟩
  unfold Deliverable
  decide +kernel

theorem witness_SynchDeliversDrawnValue :
    Memory.wf (start 4 3).mem = true ∧ Deliverable (start 4 3) (.reg 0) ∧ Deliverable (start 4 3) (.mem 0x1001) := by
  refine ⟨by decide +kernel, trivial, ?_⟩
  unfold Deliverable
  decide +kernel

theorem witness_MoveFromDeniedDestination :
    let s := { start 4 3 with access := [⟨0x1000, 0x1FFF, none, none, .modify⟩] }
    (5 : Word).toNat ≤ 5 ∧ inDeviceSpace s 0x1FFF 4 = false ∧ accessCheck s 0x1FFF 4 .write ≠ .ok := by decide +kernel

/-- MoveToCountAndLength: both sides of each limit. -/
theorem witness_MoveToCountAndLength :
    (127 : Longword).toNat ≤ 127 ∧ ¬ (128 : Longword).toNat ≤ 127 ∧ (64 : Longword).toNat ≤ 64 ∧
    ¬ (65 : Longword).toNat ≤ 64 := by decide

theorem witness_ReservedRegnumRefused : 5 < (6 : Word).toNat ∧ 3 < (4 : Word).toNat ∧ 0 < (1 : Word).toNat := by decide

/-- IotaCompresses: a first and a last matching element, and the element after them. -/
theorem witness_IotaCompresses :
    Cntrl.zeroUnder mbzIota 0x4005 = true ∧ (matching 0x4005 (start 8 0b10110010))[0]? = some 1 ∧
    (matching 0x4005 (start 8 0b10110010))[3]? = some 7 ∧ (matching 0x4005 (start 8 0b10110010)).length ≤
      (4 : ElemIx).val := by
  decide +kernel

/-- IntegerVectorVector: EXC set and a sum at the top of the range; EXC clear and any sum. -/
theorem witness_IntegerVectorVector :
    let s := withLows 1 [0x7FFFFFFE, 5] (withLows 2 [1, 6] (start 2 0))
    Cntrl.zeroUnder mbzVV 0x2123 = true ∧ Cntrl.exc 0x2123 = true ∧ Processed 0x2123 s 0 ∧
    (∀ i, Processed 0x2123 s i → IOp.overflows .add (s.elem (Cntrl.va 0x2123) i).lo (s.elem
      (Cntrl.vb 0x2123) i).lo = false) ∧
    Cntrl.zeroUnder mbzVV 0x0123 = true ∧ Cntrl.exc 0x0123 = false := by
  unfold Processed
  decide +kernel

theorem witness_IntegerVectorScalar :
    let s := withLows 2 [1, 6] (start 2 0)
    Cntrl.zeroUnder mbzVS 0x2023 = true ∧ Cntrl.exc 0x2023 = true ∧ Processed 0x2023 s 0 ∧
    (∀ i, Processed 0x2023 s i → IOp.overflows .sub 0x80000007 (s.elem (Cntrl.vb 0x2023) i).lo = false) := by
  unfold Processed
  decide +kernel

/-- IntegerOverflowRaised: the second element is the first to overflow, in both forms. -/
theorem witness_IntegerOverflowRaised :
    let s := withLows 1 [5, 0x7FFFFFFF, 0x80000000] (withLows 2 [7, 1, 0xFFFFFFFF] (start 3 0))
    Cntrl.exc 0x2123 = true ∧ Cntrl.zeroUnder mbzVV 0x2123 = true ∧
    FirstProcessed 0x2123 s (fun i => IOp.overflows .add (s.elem (Cntrl.va 0x2123) i).lo (s.elem
      (Cntrl.vb 0x2123) i).lo = true) 1 ∧
    Cntrl.zeroUnder mbzVS 0x2012 = true ∧ Cntrl.exc 0x2012 = true ∧
    FirstProcessed 0x2012 s (fun i => IOp.overflows .mul 2 (s.elem (Cntrl.vb 0x2012) i).lo = true) 1 := by
  simp only [FirstProcessed, Processed]
  decide +kernel

/-- FloatVectorVector: a value, and an underflow with EXC clear. -/
theorem witness_FloatVectorVector :
    let s := withLows 0 [0x4080, 0x0E80] (start 2 0)
    Cntrl.zeroUnder mbzVV 0x0001 = true ∧ Processed 0x0001 s 1 ∧
    (vaxFP.op .mul .f (elemDatum (s.elem 0 1) .f) (elemDatum (s.elem 0 1) .f) = .underflow) ∧
    ∀ i, Processed 0x0001 s i → StoresFloat (Cntrl.exc 0x0001)
      (vaxFP.op .mul .f (elemDatum (s.elem (Cntrl.va 0x0001) i) .f) (elemDatum (s.elem (Cntrl.vb 0x0001) i) .f)) := by
  simp only [stores_float_iff]
  unfold Processed
  decide +kernel

theorem witness_FloatVectorScalar :
    let s := withQuads 1 [0x4010, 0x4020] (start 2 0)
    Cntrl.zeroUnder mbzVS 0x2012 = true ∧ Processed 0x2012 s 1 ∧
    ∀ i, Processed 0x2012 s i → StoresFloat (Cntrl.exc 0x2012)
      (vaxFP.op .sub .g 0x4028 (elemDatum (s.elem (Cntrl.vb 0x2012) i) .g)) := by
  simp only [stores_float_iff]
  unfold Processed
  decide +kernel

/-- FloatExceptionRaised: each of the four exceptions, at the second element, vector-vector and vector-scalar. -/
theorem witness_FloatExceptionRaised :
    (let s := withLows 0 [0x4100, 0x7280] (start 2 0)
     Cntrl.zeroUnder mbzVV 0x0001 = true ∧
     let answer := fun i => vaxFP.op .mul .f (elemDatum (s.elem (Cntrl.va 0x0001) i) .f) (elemDatum (s.elem
       (Cntrl.vb 0x0001) i) .f)
     FirstProcessed 0x0001 s (fun i => ¬ StoresFloat (Cntrl.exc 0x0001) (answer i)) 1 ∧
       floatExc (answer 1) = some .floatingOverflow) ∧
    (let s := withLows 0 [0x4100, 0x0E80] (start 2 0)
     Cntrl.zeroUnder mbzVV 0x2001 = true ∧
     let answer := fun i => vaxFP.op .mul .f (elemDatum (s.elem (Cntrl.va 0x2001) i) .f) (elemDatum (s.elem
       (Cntrl.vb 0x2001) i) .f)
     FirstProcessed 0x2001 s (fun i => ¬ StoresFloat (Cntrl.exc 0x2001) (answer i)) 1 ∧
       floatExc (answer 1) = some .floatingUnderflow) ∧
    (let s := withLows 1 [0x4100, 0] (start 2 0)
     Cntrl.zeroUnder mbzVS 0x0012 = true ∧
     let answer := fun i => vaxFP.op .div .f 0x4080 (elemDatum (s.elem (Cntrl.vb 0x0012) i) .f)
     FirstProcessed 0x0012 s (fun i => ¬ StoresFloat (Cntrl.exc 0x0012) (answer i)) 1 ∧
       floatExc (answer 1) = some .floatingDivideByZero) ∧
    (let s := withLows 1 [0x4100, 0x8000] (start 2 0)
     let answer := fun i => vaxFP.op .add .f 0x4080 (elemDatum (s.elem (Cntrl.vb 0x0012) i) .f)
     FirstProcessed 0x0012 s (fun i => ¬ StoresFloat (Cntrl.exc 0x0012) (answer i)) 1 ∧
       floatExc (answer 1) = some .floatingReservedOperand) := by
  simp only [stores_float_iff, FirstProcessed, Processed]
  refine ⟨?_, ?_, ?_, ?_⟩ <;> decide +kernel

/-- FloatResultIsNearest: operands of each kind; a sum that is a tie; a product just at the overflow bound and one just below
it; a quotient that underflows. -/
theorem witness_FloatResultIsNearest :
    ¬ ReservedBits .f 0x4080 ∧ ¬ ZeroBits .f 0x4080 ∧ ¬ ReservedBits .d 0x4080 ∧ ¬ ReservedBits .g 0x4010 ∧
    vaxFP.op .add .f 0x4080 0x3480 = .value 0x00014080 ∧
    fRound .f false (2 ^ 25 - 1) 1 102 = .overflow ∧ fRound .f false (2 ^ 26 - 3) 1 101 = .value 0xFFFF7FFF ∧
    fRound .f false (2 ^ 25 - 1) 1 (-153) = .value 0x0080 ∧ fRound .f false (2 ^ 26 - 3) 1 (-154) = .underflow ∧
    vaxFP.op .div .f 0x0080 0x4100 = .underflow := by
  unfold ReservedBits ZeroBits
  decide +kernel

theorem witness_FloatCompareOrdersValues :
    ¬ ReservedBits .f 0x4080 ∧ ¬ ReservedBits .f 0xC080 ∧ ¬ ReservedBits .d 0 ∧ ¬ ReservedBits .d 0xC080 ∧
    ¬ ReservedBits .g 0x0010 ∧ ¬ ReservedBits .g 0x8010 := by
  unfold ReservedBits
  decide +kernel

theorem witness_LogicalFunctions :
    Cntrl.zeroUnder mbzVVNoExc 0xC123 = true ∧ Cntrl.zeroUnder mbzVSNoExc 0xC0FF = true := by decide

theorem witness_LogicalShifts :
    Cntrl.zeroUnder mbzVVNoExc 0xCFFF = true ∧ Cntrl.zeroUnder mbzVSNoExc 0x80FF = true := by decide

/-- CompareOpcodes: a floating compare on a mask, and an integer one with a scalar. -/
theorem witness_CompareOpcodes :
    (let s := withLows 0 [0x4080, 0x8000] (withLows 1 [0x4100, 0x4100] (start 2 1))
     Cntrl.cmpBit3 0xC016 = false ∧ Cntrl.rel 0xC016 = some .geq ∧ Cntrl.zeroUnder mbzVVNoExc 0xC016 = true ∧
     Processed 0xC016 s 0 ∧ ∀ i, Processed 0xC016 s i →
       orderOf .f (elemDatum (s.elem (Cntrl.va 0xC016) i) .f) (elemDatum (s.elem
         (Cntrl.vb 0xC016) i) .f) ≠ .reservedOperand) ∧
    (Cntrl.cmpBit3 0x0010 = false ∧ Cntrl.rel 0x0010 = some .gtr ∧ Cntrl.zeroUnder mbzVSNoExc 0x0010 = true ∧
     ∀ i, Processed 0x0010 (start 2 0) i →
       orderOf .l 7 (elemDatum ((start 2 0).elem (Cntrl.vb 0x0010) i) .l) ≠ .reservedOperand) := by
  unfold Processed
  decide +kernel

theorem witness_CompareMnemonicsVectorVector :
    let s := withQuads 0 [0x4080, 0x8000] (withQuads 1 [0x4100, 0x4100] (start 2 1))
    Processed (Cntrl.vvCmp .on1 0 1 .lss) s 0 ∧ ∀ i, Processed (Cntrl.vvCmp .on1 0 1 .lss) s i →
      orderOf .d (elemDatum (s.elem 0 i) .d) (elemDatum (s.elem 1 i) .d) ≠ .reservedOperand := by
  unfold Processed
  decide +kernel

theorem witness_CompareMnemonicsVectorScalar :
    let s := withQuads 1 [0x8000, 0x4020] (start 2 1)
    Processed (Cntrl.vsCmp .on0 1 .neq) s 1 ∧ ∀ i, Processed (Cntrl.vsCmp .on0 1 .neq) s i →
      orderOf .g 0x4010 (elemDatum (s.elem 1 i) .g) ≠ .reservedOperand := by
  unfold Processed
  decide +kernel

/-- CompareReservedOperandRaised: a reserved operand in the second element, and a reserved scalar. -/
theorem witness_CompareReservedOperandRaised :
    let s := withLows 0 [0x4080, 0x4080] (withLows 1 [0x4100, 0x8000] (start 2 3))
    Cntrl.cmpBit3 0x0011 = false ∧ Cntrl.rel 0x0011 = some .eql ∧ Cntrl.zeroUnder mbzVVNoExc 0x0011 = true ∧
    FirstProcessed 0x0011 s (fun i => ReservedBits .f (elemDatum (s.elem (Cntrl.va 0x0011) i) .f) ∨
      ReservedBits .f (elemDatum (s.elem (Cntrl.vb 0x0011) i) .f)) 1 ∧
    Cntrl.zeroUnder mbzVSNoExc 0x0001 = true ∧ Cntrl.cmpBit3 0x0001 = false ∧ Cntrl.rel 0x0001 = some .eql ∧
    FirstProcessed 0x0001 s (fun i => ReservedBits .f 0x8000 ∨
      ReservedBits .f (elemDatum (s.elem (Cntrl.vb 0x0001) i) .f)) 0 := by
  simp only [FirstProcessed, Processed, ReservedBits]
  refine ⟨?_, ?_, ?_, ?_, ?_, ?_, ?_, ?_⟩ <;> decide +kernel

theorem witness_CompareCodesRefused :
    Cntrl.zeroUnder mbzVVNoExc 0x0128 = true ∧ BitVec.getLsbD (0x0128 : Cntrl) 3 = true ∧
      Cntrl.zeroUnder mbzVVNoExc 0x0123 = true ∧
    BitVec.getLsbD (0x0123 : Cntrl) 3 = false ∧ BitVec.extractLsb' 0 3 (0x0123 : Cntrl) = 3 ∧
    Cntrl.zeroUnder mbzVSNoExc 0x0028 = true ∧ BitVec.getLsbD (0x0028 : Cntrl) 3 = true ∧
      Cntrl.zeroUnder mbzVSNoExc 0x0027 = true ∧
    BitVec.getLsbD (0x0027 : Cntrl) 3 = false ∧ BitVec.extractLsb' 0 3 (0x0027 : Cntrl) = 7 := by decide +kernel

theorem witness_MergeSelects :
    Cntrl.zeroUnder mbzVVMerge 0x4FFF = true ∧ Cntrl.zeroUnder mbzVSMerge 0x40FF = true := by decide

/-- ConvertOpcode: a value, and an integer overflow with EXC clear. -/
theorem witness_ConvertOpcode :
    let s := withLows 1 [0x40C0, 0x5000] (start 2 0)
    Cntrl.zeroUnder mbzVV 0x0412 = true ∧ Cntrl.cvtFunc 0x0412 = some .cvtfl ∧ Processed 0x0412 s 1 ∧
    ∀ i, Processed 0x0412 s i → StoresCvt (Cntrl.exc 0x0412)
      (vaxFP.cvt .cvtfl (elemDatum (s.elem (Cntrl.vb 0x0412) i) CvtFunc.cvtfl.src)) := by
  simp only [stores_cvt_iff]
  unfold Processed
  decide +kernel

theorem witness_ConvertMnemonics :
    let s := withQuads 1 [0x4018, 0x3390] (start 2 1)
    Processed (Cntrl.cvt .cvtgf true .on1 1 2) s 0 ∧ ∀ i, Processed (Cntrl.cvt .cvtgf true .on1 1 2) s i →
      StoresCvt true (vaxFP.cvt .cvtgf (elemDatum (s.elem 1 i) CvtFunc.cvtgf.src)) := by
  simp only [stores_cvt_iff]
  unfold Processed
  decide +kernel

/-- ConvertExceptionRaised: each of the four exceptions. -/
theorem witness_ConvertExceptionRaised :
    (let s := withLows 1 [0x40C0, 0x5000] (start 2 0)
     Cntrl.zeroUnder mbzVV 0x2412 = true ∧ Cntrl.cvtFunc 0x2412 = some .cvtfl ∧
     let answer := fun i => vaxFP.cvt .cvtfl (elemDatum (s.elem (Cntrl.vb 0x2412) i) CvtFunc.cvtfl.src)
     FirstProcessed 0x2412 s (fun i => ¬ StoresCvt (Cntrl.exc 0x2412) (answer i)) 1 ∧
       cvtExc (answer 1) = some .integerOverflow) ∧
    (let s := withLows 1 [0x4080, 0x8000] (start 2 0)
     Cntrl.zeroUnder mbzVV 0x0412 = true ∧ Cntrl.cvtFunc 0x0412 = some .cvtfl ∧
     let answer := fun i => vaxFP.cvt .cvtfl (elemDatum (s.elem (Cntrl.vb 0x0412) i) CvtFunc.cvtfl.src)
     FirstProcessed 0x0412 s (fun i => ¬ StoresCvt (Cntrl.exc 0x0412) (answer i)) 1 ∧
       cvtExc (answer 1) = some .floatingReservedOperand) ∧
    (let s := withQuads 1 [0x4018, 0x3390] (start 2 0)
     Cntrl.zeroUnder mbzVV 0x2D12 = true ∧ Cntrl.cvtFunc 0x2D12 = some .cvtgf ∧
     let answer := fun i => vaxFP.cvt .cvtgf (elemDatum (s.elem (Cntrl.vb 0x2D12) i) CvtFunc.cvtgf.src)
     FirstProcessed 0x2D12 s (fun i => ¬ StoresCvt (Cntrl.exc 0x2D12) (answer i)) 1 ∧
       cvtExc (answer 1) = some .floatingUnderflow) ∧
    (let s := withQuads 1 [0x4C90] (start 1 0)
     Cntrl.zeroUnder mbzVV 0x0D12 = true ∧ Cntrl.cvtFunc 0x0D12 = some .cvtgf ∧
     let answer := fun i => vaxFP.cvt .cvtgf (elemDatum (s.elem (Cntrl.vb 0x0D12) i) CvtFunc.cvtgf.src)
     FirstProcessed 0x0D12 s (fun i => ¬ StoresCvt (Cntrl.exc 0x0D12) (answer i)) 0 ∧
       cvtExc (answer 0) = some .floatingOverflow) := by
  simp only [stores_cvt_iff, FirstProcessed, Processed]
  refine ⟨?_, ?_, ?_, ?_⟩ <;> decide +kernel

theorem witness_ReservedConversionRefused :
    Cntrl.zeroUnder mbzVV 0x0012 = true ∧ BitVec.extractLsb' 8 4 (0x0012 : Cntrl) = 0#4 ∧
    BitVec.extractLsb' 8 4 (0x0B12 : Cntrl) = 11#4 ∧ BitVec.extractLsb' 8 4 (0x0E12 : Cntrl) = 14#4 ∧
    Cntrl.zeroUnder mbzVV 0x0B12 = true ∧ Cntrl.zeroUnder mbzVV 0x0E12 = true := by decide

theorem witness_ExactConversionsKeepValue : ¬ ReservedBits .f 0xC0C0 ∧ ¬ ReservedBits .f 0 := by
  unfold ReservedBits
  decide +kernel

theorem witness_ConversionsToLongword :
    ¬ ReservedBits .f 0xC0C0 ∧ ¬ ReservedBits .d 0x0000FF00FFFF4FFF ∧ ¬ ReservedBits .g 0x0000C0005A0B4206 := by
  unfold ReservedBits
  decide +kernel

/-- StridedLoads: addresses that wrap past the top of memory. -/
theorem witness_StridedLoads :
    let s := start 2 0
    Cntrl.zeroUnder mbzLoad 0xE001 = true ∧ Cntrl.zeroUnder mbzLoad 0x2001 = true ∧ Processed 0x2001 s 1 ∧
    (∀ i, Processed 0x2001 s i → Loadable .long (Cntrl.mi 0x2001) s (stridedAddr 0xFFFFFFFC 4 i)) ∧
    ∀ i, Processed 0x2001 s i → Loadable .quad (Cntrl.mi 0x2001) s (stridedAddr 0xFFFFFFF8 8 i) := by
  unfold Processed Loadable
  decide +kernel

theorem witness_Gathers :
    let s := withLows 1 [8, 0] (start 2 0)
    Cntrl.zeroUnder mbzGather 0x0011 = true ∧ Processed 0x0011 s 1 ∧
    (∀ i, Processed 0x0011 s i → Loadable .long (Cntrl.mi 0x0011) s (indexedAddr 0x1000 (s.elem (Cntrl.vb 0x0011) i))) ∧
    ∀ i, Processed 0x0011 s i → Loadable .quad (Cntrl.mi 0x0011) s (indexedAddr 0x1000 (s.elem (Cntrl.vb 0x0011) i)) := by
  unfold Processed Loadable
  decide +kernel

/-- StridedStores: a stride of 0, where every element goes to one address. -/
theorem witness_StridedStores :
    let s := withLows 1 [8, 0] (start 2 0)
    Memory.wf s.mem = true ∧ Cntrl.zeroUnder mbzStore 0x0001 = true ∧ Processed 0x0001 s 1 ∧
    (∀ i, Processed 0x0001 s i → Storable .long s (stridedAddr 0x3000 0 i)) ∧
    ∀ i, Processed 0x0001 s i → Storable .quad s (stridedAddr 0x3000 0 i) := by
  unfold Processed Storable
  decide +kernel

theorem witness_Scatters :
    let s := withLows 1 [8, 0, 8] (start 3 0)
    Memory.wf s.mem = true ∧ Cntrl.zeroUnder mbzScatter 0x0021 = true ∧ Processed 0x0021 s 2 ∧
    (∀ i, Processed 0x0021 s i → Storable .long s (indexedAddr 0x3000 (s.elem (Cntrl.vb 0x0021) i))) ∧
    ∀ i, Processed 0x0021 s i → Storable .quad s (indexedAddr 0x3000 (s.elem (Cntrl.vb 0x0021) i)) := by
  unfold Processed Storable
  decide +kernel

/-- A state with a device page, three pages that the access check answers for, and a program text. -/
def guarded : State :=
  { withLows 1 [0, 2] (start 2 0) with
    devices := [⟨0x2000, 0x2FFF⟩], text := [0xFD, 0x80, 0x8F, 0x00, 0x00], textBase := 0x6000,
    access := [⟨0x3000, 0x3FFF, none, none, .accessControlViolation⟩,
      ⟨0x4000, 0x4FFF, none, none, .translationNotValid⟩, ⟨0x5000, 0x5FFF, none, none, .modify⟩] }

/-- LoadStops: each of the four ways, an unaligned element first among them. -/
theorem witness_LoadStops :
    (let s := guarded
     Cntrl.zeroUnder (Instr.vgathl 0x0012 0x1000).kind.mbz 0x0012 = true ∧
     FirstProcessed 0x0012 s (fun j => ¬ Loadable .long false s (indexedAddr 0x1000 (s.elem (Cntrl.vb 0x0012) j))) 1 ∧
     Cntrl.zeroUnder (Instr.vldq 0x0002 0x2000 8).kind.mbz 0x0002 = true ∧
     FirstProcessed 0x0002 s (fun j => ¬ Loadable .quad false s (stridedAddr 0x1FF8 8 j)) 1 ∧
     FirstProcessed 0x0002 s (fun j => ¬ Loadable .quad false s (stridedAddr 0x3000 8 j)) 0 ∧
     FirstProcessed 0x0002 s (fun j => ¬ Loadable .quad false s (stridedAddr 0x4FF8 8 j)) 0) := by
  simp only [FirstProcessed, Processed, Loadable]
  refine ⟨?_, ?_, ?_, ?_, ?_, ?_⟩ <;> decide +kernel

/-- StoreStops: each of the six ways. -/
theorem witness_StoreStops :
    (let s := guarded
     Cntrl.zeroUnder (Instr.vscatl 0x0012 0x1000).kind.mbz 0x0012 = true ∧
     FirstProcessed 0x0012 s (fun j => ¬ Storable .long s (indexedAddr 0x1000 (s.elem (Cntrl.vb 0x0012) j))) 1 ∧
     Cntrl.zeroUnder (Instr.vstq 0x0002 0x2000 8).kind.mbz 0x0002 = true ∧
     FirstProcessed 0x0002 s (fun j => ¬ Storable .quad s (stridedAddr 0x1FF8 8 j)) 1 ∧
     FirstProcessed 0x0002 s (fun j => ¬ Storable .quad s (stridedAddr 0x3000 8 j)) 0 ∧
     FirstProcessed 0x0002 s (fun j => ¬ Storable .quad s (stridedAddr 0x4000 8 j)) 0 ∧
     FirstProcessed 0x0002 s (fun j => ¬ Storable .quad s (stridedAddr 0x5000 8 j)) 0 ∧
     FirstProcessed 0x0002 s (fun j => ¬ Storable .quad s (stridedAddr 0x6000 8 j)) 0) := by
  simp only [FirstProcessed, Processed, Storable]
  refine ⟨?_, ?_, ?_, ?_, ?_, ?_, ?_, ?_⟩ <;> decide +kernel

theorem witness_LittleEndianMemory : Memory.wf (withBytes 0xFFFFFFFE [1, 2, 3,
    4] (start 0 0)).mem = true := by decide +kernel

theorem witness_EffectiveAddresses : (63 : ElemIx).val = (62 : ElemIx).val + 1 := by decide

theorem witness_OnlyDestinationsWritten :
    (∃ t, exec (.vstl 0x0001 0x3000 4) (start 2 0) = .next t) ∧ (∃ t, exec (.vvaddl 0x0123) (start 64 0) = .next t) ∧
    (∃ t, exec (.mfvp 4 (.mem 0x3000)) (start 2 0) = .next t) ∧ ∃ t, exec (.vseqll .on0 7 3) (start 2 0) = .next t :=
  ⟨next_of_isSome (by decide +kernel), next_of_isSome (by decide +kernel), next_of_isSome (by decide +kernel),
    next_of_isSome (by decide +kernel)⟩

theorem witness_ExceptionsOfInstructions :
    (∃ left, exec (.vvaddl 0x2123) (withLows 1 [0, 0x7FFFFFFF] (withLows 2 [0, 1] (start 2 0))) =
      .fault (.raised .integerOverflow 1 left)) ∧
    ∃ left, exec (.vstq 0x0002 0x3004 8) (start 1 0) = .fault (.raised (.vectorAlignment 0x3004) 0 left) :=
  ⟨fault_of_raised (by decide +kernel), fault_of_raised (by decide +kernel)⟩

theorem witness_MustBeZeroFieldsRefused :
    (Instr.vvaddl 0x1000).cntrl = some 0x1000 ∧ Cntrl.zeroUnder (Instr.vvaddl 0x1000).kind.mbz 0x1000 = false ∧
    (Instr.iota 0x8000 4).cntrl = some 0x8000 ∧ Cntrl.zeroUnder (Instr.iota 0x8000 4).kind.mbz 0x8000 = false :=
  ⟨rfl, rfl, rfl, rfl⟩

theorem witness_RefusedExactlyWhenIllFormed :
    (Instr.vvcvt 0x0012).wellFormed = false ∧ (Instr.vldl 0x0001 0x1000 4).wellFormed = true ∧
    reason (exec (.vldl 0x0001 0x1000 4) { start 1 0 with devices := [⟨0x1003, 0x1003⟩] })
      = some (.deviceSpace 0x1000) := by
  decide +kernel

theorem witness_ZeroLengthChangesNothing :
    (start 0 0).vlr = 0 ∧ (Instr.iota 0x4005 4).wellFormed = true ∧ (Instr.iota 0x4005 4).kind ≠ .control ∧
    (Instr.vstq 0x0002 0x3004 8).wellFormed = true ∧ (Instr.vstq 0x0002 0x3004 8).kind ≠ .control := by decide +kernel

/-- UpperHalvesIgnored: two states that differ in an upper half, and a next state. -/
theorem witness_UpperHalvesIgnored :
    let s := withQuads 1 [0x1111111100000005] (start 1 0)
    let t := withQuads 1 [0x2222222200000005] (start 1 0)
    (Instr.vvaddl 0x0112).kind = .intArith false ∧ (∀ n k, (s.elem n k).lo = (t.elem n k).lo) ∧ s.vlr = t.vlr ∧
      s.vmr = t.vmr ∧ s.elem 1 0 ≠ t.elem 1 0 ∧ ∃ s', exec (.vvaddl 0x0112) s = .next s' :=
  ⟨rfl, by decide +kernel, rfl, rfl, by decide +kernel, next_of_isSome (by decide +kernel)⟩

/-- StepRunsDecoded: an instruction that ends at the top of the address space, and one that crosses it; specifiers that name a
register and memory, and one whose access is denied or is device space. -/
theorem witness_StepRunsDecoded :
    let s := { start 1 0 with text := [0xFD, 0x80, 0x8F, 0x23, 0x01], textBase := 0xFFFFFFFB, pc := 0xFFFFFFFB }
    let u := { start 1 0 with text := [0xFD, 0x80, 0x8F, 0x23, 0x01], textBase := 0xFFFFFFFC, pc := 0xFFFFFFFC }
    decode s.fetchBytes = .ok (.vvaddl 0x0123, 5) ∧ s.pc.toNat + 5 ≤ 2 ^ 32 ∧
    decode u.fetchBytes = .ok (.vvaddl 0x0123, 5) ∧ ¬ u.pc.toNat + 5 ≤ 2 ^ 32 := ⟨rfl, by decide, rfl, by decide⟩

theorem witness_StepRunsDecoded_specifiers :
    let sps : List Specifier := [⟨.literal 1, 3⟩, ⟨.mem (.autoinc 2), 4⟩]
    let s := { (start 1 0).setReg 2 0x1000 with text := [0xFD, 0xA9, 0x01, 0x82] }
    (∃ raw, parse s.fetchBytes = .ok (raw, 4) ∧ raw.build.kinds = [.rw, .rl] ∧ raw.specs = sps) ∧ s.pc.toNat + 4 ≤ 2 ^ 32 ∧
    resolveAll s [.rw, .rl] sps = .next ([.word 1, .long 0], s.setReg 2 0x1004) ∧
    resolveAll { s with access := [⟨0x1000, 0x1000, none, none, .translationNotValid⟩] } [.rw, .rl] sps =
      .fault (.scalarOperand 0x1000 .translationNotValid) ∧
    resolveAll { s with devices := [⟨0x1003, 0x1003⟩] } [.rw, .rl] sps = .refused (.deviceSpace 0x1000) :=
  ⟨⟨_, rfl, rfl, rfl⟩, by decide, rfl, rfl, rfl⟩

theorem witness_StepFallsThrough : ∃ t, run [0xFD, 0x80, 0x8F, 0x23, 0x01] (start 64 0) = .next t :=
  next_of_isSome (by decide +kernel)

theorem witness_StepKeepsInvariant :
    let s := withBytes 0x1000 [1] (start 64 0)
    ({ s with text := [0xFD, 0x9C, 0x8F, 0x01, 0x00, 0x9F, 0x00, 0x30, 0x00, 0x00, 0x8F, 0x04, 0x00, 0x00, 0x00] }).Inv ∧
    ∃ t, run [0xFD, 0x9C, 0x8F, 0x01, 0x00, 0x9F, 0x00, 0x30, 0x00, 0x00, 0x8F, 0x04, 0x00, 0x00, 0x00] s = .next t :=
  ⟨by unfold State.Inv; decide +kernel, next_of_isSome (by decide +kernel)⟩

/-- LongwordOperandModes: every access readable, at R2 and at R15, with the index register the one the base updates. -/
theorem witness_LongwordOperandModes :
    let s := (start 0 0).setReg 2 0x1000
    let readable := fun (u : State) (a : Address) => scalarAccess u a 4 (.read false) = .ok
    ([2, 15] : List GReg).all (fun n =>
      let value := s.general 0x2000
      decide (readable s (value n)) && decide (readable s (value n + value n * 4)) &&
      decide (readable (s.setGeneral n (value n - 4)) (value n - 4)) &&
      decide (readable (s.setGeneral n (value n - 4)) (value n - 4 + value n * 4)) &&
      decide (readable (s.setGeneral n (value n + 4)) (value n)) &&
      decide (readable (s.setGeneral n (value n + 4)) (s.readL (value n))) &&
      decide (readable s (value n + 0xFFFFFFFC)) && decide (readable s (s.readL (value n + 0xFFFFFFFC)))) = true ∧
    resolve s (s.pc + BitVec.ofNat 32 4) .rl (.register 2) = .next (.long 0x1000, s) ∧ (2 : GReg) ≠ 15 ∧
    memAddr s 0x2000 4 (.indexed 2 (.autoinc 2)) = .next (0x5000, s.setReg 2 0x1004) ∧
    parseSpec .rl [modeByte 6 2] = .ok (.mem (.deferred 2), []) ∧
    parseSpec .rl [modeByte 4 3, modeByte 6 2] = .ok (.mem (.indexed 3 (.deferred 2)), []) :=
  ⟨by decide +kernel, rfl, by decide, rfl, rfl, rfl⟩

end Sys2Proof.Tests
end

section
/-! Every instruction with a control word is one element loop behind the refusals of its encoding. -/

namespace Sys2Proof

/-- The families whose loop writes the elements of a vector register (R25, R47). -/
def Kind.writesRegister : Kind → Bool
  | .floatArith _ _ => true
  | .intArith _ => true
  | .logical _ => true
  | .shift _ => true
  | .convert => true
  | .merge _ => true
  | .load => true
  | .gather => true
  | _ => false

/-- The families that compare (R270, R290). -/
def Kind.compares : Kind → Bool
  | .floatCompare _ => true
  | .intCompare _ => true
  | _ => false

/-- The families that store to memory (R52). -/
def Kind.stores : Kind → Bool
  | .store => true
  | .scatter => true
  | _ => false

namespace Machine

/-- An answer that a loop over the elements below VLR gives, in a family of instructions and for a control word. -/
inductive LoopAnswer (s : State) (c : Cntrl) (k : Kind) : Outcome → Prop
  | register (hk : k.writesRegister = true) (sel : ElemIx → Bool) (f : ElemIx → (VReg → Element) → ElemRes) :
      LoopAnswer s c k (registerLoop sel c.vc f s)
  | compare (hk : k.compares = true) (sel : ElemIx → Bool) (f : (VReg → Element) → CmpRes) :
      LoopAnswer s c k (compareLoop sel f s)
  | store (hk : k.stores = true) (sel : ElemIx → Bool) (w : MemWidth) (addr : ElemIx → Address) :
      LoopAnswer s c k (storeLoop sel w addr c.vc s)
  | iota (hk : k = .iota) (stride : Longword) :
      LoopAnswer s c k (.next (iotaLoop c.mtf stride c.vc s.elements 0 0 s))

/-- What an instruction with a control word answers: its loop's answer, or a refusal when its encoding has no meaning. -/
structure LoopOrRefused (wellFormed : Bool) (s : State) (c : Cntrl) (k : Kind) (out : Outcome) : Prop where
  loop : wellFormed = true → LoopAnswer s c k out
  refused : wellFormed = false → ∃ r, out = .refused r ∧ r.ofEncoding = true

theorem checkedMbz_loop {s : State} {c mask : Cntrl} {k : Kind} {body : Outcome} (h : LoopAnswer s c k body) :
    LoopOrRefused (Cntrl.zeroUnder mask c) s c k (checkedMbz mask c body) where
  loop hz := by simpa [checkedMbz, hz] using h
  refused hz := ⟨.nonzeroMbzField, by simp [checkedMbz, hz], rfl⟩

theorem checkedCmp_loop {s : State} {c mask : Cntrl} {k : Kind} {body : Rel → Outcome}
    (h : ∀ rel, LoopAnswer s c k (body rel)) :
    LoopOrRefused (cmpWellFormed mask c) s c k (checkedCmp mask c body) := by
  unfold cmpWellFormed checkedCmp checkedMbz
  cases Cntrl.zeroUnder mask c
  case false => exact ⟨nofun, fun _ => ⟨.nonzeroMbzField, rfl, rfl⟩⟩
  case true =>
    cases c.cmpBit3
    case true => exact ⟨nofun, fun _ => ⟨.vcmpCntrl3, rfl, rfl⟩⟩
    case false =>
      cases c.rel with
      | none => exact ⟨nofun, fun _ => ⟨.reservedCmpFunc, rfl, rfl⟩⟩
      | some rel => exact ⟨fun _ => h rel, nofun⟩

theorem convert_loop (fp : FP) (c : Cntrl) (s : State) :
    LoopOrRefused (Cntrl.zeroUnder mbzVV c && c.cvtFunc.isSome) s c .convert (convert fp c s) := by
  unfold convert checkedMbz
  cases Cntrl.zeroUnder mbzVV c
  case false => exact ⟨nofun, fun _ => ⟨.nonzeroMbzField, rfl, rfl⟩⟩
  case true =>
    cases c.cvtFunc with
    | none => exact ⟨nofun, fun _ => ⟨.reservedCvtFunc, rfl, rfl⟩⟩
    | some f => exact ⟨fun _ => .register rfl _ _, nofun⟩

/-- What every instruction but MFVP, MTVP and VSYNC answers. Each arm of `exec` is its family's loop behind the tests of the
control word, which are those of `Instr.wellFormed`. -/
theorem exec_loop (i : Instr) (s : State) (hk : i.kind ≠ .control) :
    ∃ c, i.cntrl = some c ∧ LoopOrRefused i.lower.wellFormed s c i.kind (exec i s) := by
  cases i with
  | vvaddl c | vvsubl c | vvmull c | vvaddf c | vvaddd c | vvaddg c | vvsubf c | vvsubd c | vvsubg c | vvmulf c
  | vvmuld c | vvmulg c | vvdivf c | vvdivd c | vvdivg c | vvbisl c | vvxorl c | vvbicl c | vvsrll c | vvslll c
  | vvmerge c | vsaddl c x | vssubl c x | vsmull c x | vsaddf c x | vsaddd c x | vsaddg c x | vssubf c x | vssubd c x
  | vssubg c x | vsmulf c x | vsmuld c x | vsmulg c x | vsdivf c x | vsdivd c x | vsdivg c x | vsbisl c x | vsxorl c x
  | vsbicl c x | vssrll c x | vsslll c x | vsmerge c x | vgathl c a | vgathq c a | vldl c a x | vldq c a x
  | vsmergef t x vb vc | vsmerged t x vb vc | vsmergeg t x vb vc =>
    exact ⟨_, rfl, checkedMbz_loop (.register rfl _ _)⟩
  | vstl c a x | vstq c a x | vscatl c a | vscatq c a => exact ⟨_, rfl, checkedMbz_loop (.store rfl _ _ _)⟩
  | iota c x => exact ⟨_, rfl, checkedMbz_loop (.iota rfl x)⟩
  | vvcmpl c | vvcmpf c | vvcmpd c | vvcmpg c | vscmpl c x | vscmpf c x | vscmpd c x | vscmpg c x
  | vvgtrf q a b | vveqlf q a b | vvlssf q a b | vvleqf q a b | vvneqf q a b | vvgeqf q a b
  | vsgtrf q x b | vseqlf q x b | vslssf q x b | vsleqf q x b | vsneqf q x b | vsgeqf q x b
  | vvgtrd q a b | vveqld q a b | vvlssd q a b | vvleqd q a b | vvneqd q a b | vvgeqd q a b
  | vsgtrd q x b | vseqld q x b | vslssd q x b | vsleqd q x b | vsneqd q x b | vsgeqd q x b
  | vvgtrg q a b | vveqlg q a b | vvlssg q a b | vvleqg q a b | vvneqg q a b | vvgeqg q a b
  | vsgtrg q x b | vseqlg q x b | vslssg q x b | vsleqg q x b | vsneqg q x b | vsgeqg q x b
  | vvgtrl q a b | vveqll q a b | vvlssl q a b | vvleql q a b | vvneql q a b | vvgeql q a b
  | vsgtrl q x b | vseqll q x b | vslssl q x b | vsleql q x b | vsneql q x b | vsgeql q x b =>
    exact ⟨_, rfl, checkedCmp_loop fun rel => .compare rfl _ _⟩
  | vvcvt c | vvcvtlf u q b c | vvcvtld u q b c | vvcvtlg u q b c | vvcvtfl u q b c | vvcvtrfl u q b c
  | vvcvtfd u q b c | vvcvtfg u q b c | vvcvtdl u q b c | vvcvtdf u q b c | vvcvtrdl u q b c | vvcvtgl u q b c
  | vvcvtgf u q b c | vvcvtrgl u q b c =>
    exact ⟨_, rfl, convert_loop vaxFP _ s⟩
  | mfvp | mtvp | vsync | mfvcr | mfvlr | mfvmrlo | mfvmrhi | synch | msynch | mtvcr | mtvlr | mtvmrlo | mtvmrhi
  | vsynch => exact absurd rfl hk

/-- The instructions without a control word stand for one of three opcodes (R140, R141). -/
theorem control_lower (i : Instr) (hk : i.kind = .control) :
    (∃ n d, i.lower = .mfvp n d) ∨ (∃ n x, i.lower = .mtvp n x) ∨ ∃ n, i.lower = .vsync n := by
  cases i with
  | mfvp | mfvcr | mfvlr | mfvmrlo | mfvmrhi | synch | msynch => exact .inl ⟨_, _, rfl⟩
  | mtvp | mtvcr | mtvlr | mtvmrlo | mtvmrhi => exact .inr (.inl ⟨_, _, rfl⟩)
  | vsync | vsynch => exact .inr (.inr ⟨_, rfl⟩)
  | _ => cases hk
end Machine

end Sys2Proof
end

section
/-! What the element loops, the control register moves and every instruction leave unchanged; what they keep of the invariant. -/

namespace Sys2Proof

/-- A well-formed instruction stands for a well-formed opcode-level instruction. -/
theorem Instr.lower_wellFormed (i : Instr) (h : i.wellFormed = true) : i.lower.wellFormed = true := by
  revert h
  cases i with
  | vvgtrf q a b | vveqlf q a b | vvlssf q a b | vvleqf q a b | vvneqf q a b | vvgeqf q a b
  | vvgtrd q a b | vveqld q a b | vvlssd q a b | vvleqd q a b | vvneqd q a b | vvgeqd q a b
  | vvgtrg q a b | vveqlg q a b | vvlssg q a b | vvleqg q a b | vvneqg q a b | vvgeqg q a b
  | vvgtrl q a b | vveqll q a b | vvlssl q a b | vvleql q a b | vvneql q a b | vvgeql q a b =>
    exact fun _ => Laws.vv_cmp_wellFormed q a b _
  | vsgtrf q x b | vseqlf q x b | vslssf q x b | vsleqf q x b | vsneqf q x b | vsgeqf q x b
  | vsgtrd q x b | vseqld q x b | vslssd q x b | vsleqd q x b | vsneqd q x b | vsgeqd q x b
  | vsgtrg q x b | vseqlg q x b | vslssg q x b | vsleqg q x b | vsneqg q x b | vsgeqg q x b
  | vsgtrl q x b | vseqll q x b | vslssl q x b | vsleql q x b | vsneql q x b | vsgeql q x b =>
    exact fun _ => Laws.vs_cmp_wellFormed q b _
  | vvcvtlf u q b c | vvcvtld u q b c | vvcvtlg u q b c | vvcvtfl u q b c | vvcvtrfl u q b c
  | vvcvtfd u q b c | vvcvtfg u q b c | vvcvtdl u q b c | vvcvtdf u q b c | vvcvtrdl u q b c | vvcvtgl u q b c
  | vvcvtgf u q b c | vvcvtrgl u q b c => exact fun _ => Laws.cvt_wellFormed _ u q b c
  | vsmergef t x b c | vsmerged t x b c | vsmergeg t x b c => exact fun _ => Laws.vs_merge_wellFormed t b c
  | _ => exact id

namespace Machine

/-! ### One field written -/

theorem Unchanged.withVlr {w : Writes} (h : w.vlr = true) (s : State) (x : BitVec 7) :
    Unchanged w s { s with vlr := x } :=
  { Unchanged.refl w s with vlr := fun e => by simp [h] at e }

theorem Unchanged.withVcr {w : Writes} (h : w.vcr = true) (s : State) (x : BitVec 7) :
    Unchanged w s { s with vcr := x } :=
  { Unchanged.refl w s with vcr := fun e => by simp [h] at e }

theorem Unchanged.withVmr {w : Writes} (h : w.vmr = true) (s : State) (x : BitVec 64) :
    Unchanged w s { s with vmr := x } :=
  { Unchanged.refl w s with vmr := fun e => by simp [h] at e }

theorem Unchanged.withDraws {w : Writes} (h : w.draws = true) (s : State) (n : Nat) :
    Unchanged w s { s with draws := n } :=
  { Unchanged.refl w s with draws := fun e => by simp [h] at e }

/-! ### Loops -/

/-- What the loop of a family may write. -/
def loopWrites (c : Cntrl) : Kind → Writes
  | .floatCompare _ => { vmr := true }
  | .intCompare _ => { vmr := true }
  | .iota => iotaWrites c.vc
  | .store => { mem := true }
  | .scatter => { mem := true }
  | _ => registerWrites c.vc

theorem loopWrites_register {k : Kind} (c : Cntrl) (hk : k.writesRegister = true) :
    loopWrites c k = registerWrites c.vc := by
  cases k with
  | floatArith | intArith | logical | shift | convert | merge | load | gather => rfl
  | _ => cases hk

theorem loopWrites_compare {k : Kind} (c : Cntrl) (hk : k.compares = true) : loopWrites c k = { vmr := true } := by
  cases k with
  | floatCompare | intCompare => rfl
  | _ => cases hk

theorem loopWrites_store {k : Kind} (c : Cntrl) (hk : k.stores = true) : loopWrites c k = { mem := true } := by
  cases k with
  | store | scatter => rfl
  | _ => cases hk

/-- An instruction with a control word may write what its family's loop may. -/
theorem writesOf_loop {i : Instr} {c : Cntrl} (hc : i.cntrl = some c) : writesOf i = loopWrites c i.kind := by
  cases i <;> cases hc <;> rfl

theorem registerLoop_next {sel : ElemIx → Bool} {vc : VReg} {f : ElemIx → (VReg → Element) → ElemRes} {s t : State}
    (h : registerLoop sel vc f s = .next t) : RegisterDone sel vc f s.elements s t := by
  rcases registerLoop_cases sel vc f s with ⟨u, hu, d⟩ | ⟨k, e, left, -, -, -, -, hu⟩ | ⟨k, r, -, -, -, -, hu⟩ <;>
    rw [hu] at h <;> cases h
  exact d

theorem compareLoop_next {sel : ElemIx → Bool} {f : (VReg → Element) → CmpRes} {s t : State}
    (h : compareLoop sel f s = .next t) : CompareDone sel f s.elements s t := by
  rcases compareLoop_cases sel f s with ⟨u, hu, d⟩ | ⟨k, e, left, -, -, -, -, hu⟩ <;> rw [hu] at h <;> cases h
  exact d

theorem storeLoop_next {sel : ElemIx → Bool} {w : MemWidth} {addr : ElemIx → Address} {vc : VReg} {s t : State}
    (h : storeLoop sel w addr vc s = .next t) : StoreDone sel w addr vc s.elements s t := by
  rcases storeLoop_cases sel w addr vc s with ⟨u, hu, d⟩ | ⟨k, e, left, -, -, -, -, hu⟩ | ⟨k, r, -, -, -, -, hu⟩ <;>
    rw [hu] at h <;> cases h
  exact d

/-- A loop writes what its family may write (R25 to R28, R52). -/
theorem LoopAnswer.unchanged {s t : State} {c : Cntrl} {k : Kind} {out : Outcome} (h : LoopAnswer s c k out)
    (ht : out = .next t) : Unchanged (loopWrites c k) s t := by
  cases h with
  | register hk sel f => rw [loopWrites_register c hk]; exact (registerLoop_next ht).frame
  | compare hk sel f => rw [loopWrites_compare c hk]; exact (compareLoop_next ht).frame
  | store hk sel w addr => rw [loopWrites_store c hk]; exact (storeLoop_next ht).frame
  | iota hk stride => cases hk; cases ht; exact (iota_spec c stride s).1

/-- A loop whose body keeps a property keeps it. -/
theorem forElements_keeps {P : State → Prop} {body : ElemIx → State → Outcome}
    (keeps : ∀ i u v, body i u = .next v → P u → P v) {is : List ElemIx} {s t : State}
    (h : forElements body is s = .next t) (hs : P s) : P t := by
  induction is generalizing s with
  | nil => cases h; exact hs
  | cons i is ih =>
    simp only [forElements] at h
    split at h
    · next u hu => exact ih h (keeps i s u hu hs)
    · cases h
    · cases h

theorem registerElem_mem {sel : ElemIx → Bool} {vc : VReg} {f : ElemIx → (VReg → Element) → ElemRes} {i : ElemIx}
    {s t : State} (h : registerElem sel vc f i s = .next t) : t.mem = s.mem := by
  unfold registerElem raise at h
  repeat' split at h
  all_goals cases h
  all_goals rfl

theorem compareElem_mem {sel : ElemIx → Bool} {f : (VReg → Element) → CmpRes} {i : ElemIx} {s t : State}
    (h : compareElem sel f i s = .next t) : t.mem = s.mem := by
  unfold compareElem raise at h
  repeat' split at h
  all_goals cases h
  all_goals rfl

theorem iotaLoop_mem (mtf : Bool) (stride : Longword) (vc : VReg) (is : List ElemIx) (j : Nat) (x : Longword) (s : State) :
    (iotaLoop mtf stride vc is j x s).mem = s.mem := by
  induction is generalizing j x s with
  | nil => rfl
  | cons i is ih =>
    simp only [iotaLoop]
    split <;> simp [ih]

/-- A loop keeps the canonical form of memory. -/
theorem LoopAnswer.keeps_wf {s t : State} {c : Cntrl} {k : Kind} {out : Outcome} (h : LoopAnswer s c k out)
    (ht : out = .next t) (wf : Memory.wf s.mem = true) : Memory.wf t.mem = true := by
  cases h with
  | register hk sel f =>
    exact forElements_keeps (P := fun u => Memory.wf u.mem = true) (fun _ _ _ hv hu => registerElem_mem hv ▸ hu) ht wf
  | compare hk sel f =>
    exact forElements_keeps (P := fun u => Memory.wf u.mem = true) (fun _ _ _ hv hu => compareElem_mem hv ▸ hu) ht wf
  | store hk sel w addr => exact (storeLoop_next ht).wf wf
  | iota hk stride => cases ht; rw [iotaLoop_mem]; exact wf

/-- With VLR = 0 there is no element to process (R26). -/
theorem State.elements_of_vlr_zero {s : State} (h : s.vlr = 0) : s.elements = [] := by
  simp [State.elements, h]

/-- With VLR = 0 a loop completes at once (R26, R131). -/
theorem LoopAnswer.of_vlr_zero {s : State} {c : Cntrl} {k : Kind} {out : Outcome} (h : LoopAnswer s c k out)
    (hv : s.vlr = 0) : out = if k = .iota then .next { s with vcr := 0 } else .next s := by
  have none : s.elements = [] := State.elements_of_vlr_zero hv
  cases h with
  | register hk sel f =>
    rw [if_neg (by rintro rfl; cases hk), registerLoop, none, forElements]
  | compare hk sel f =>
    rw [if_neg (by rintro rfl; cases hk), compareLoop, none, forElements]
  | store hk sel w addr =>
    rw [if_neg (by rintro rfl; cases hk), storeLoop, none, forElements]
  | iota hk stride => rw [if_pos hk, none]; rfl

/-! ### Control register moves -/

/-- What MFVP may write, `drawn` when it draws a value (R142, R147, R148). -/
def destWrites (drawn : Bool) : Dest → Writes
  | .reg r => { scalar := some r, draws := drawn }
  | .mem _ => { mem := true, draws := drawn }

theorem Unchanged.setGeneral (drawn : Bool) (s : State) (n : GReg) (x : Longword) :
    Unchanged { scalar := some n, draws := drawn } s (s.setGeneral n x) where
  vreg := fun _ _ _ => by simp [State.elem]
  vlr := fun _ => by simp
  vcr := fun _ => by simp
  vmr := fun _ => by simp
  mem := fun _ _ => by simp [State.byte]
  scalar := fun m h => by
    rw [State.reg_setGeneral, if_neg]
    rintro rfl
    exact h rfl
  draws := fun _ => by simp
  pc := by simp
  text := by simp
  textBase := by simp
  access := by simp
  devices := by simp

theorem Unchanged.writeL (drawn : Bool) (s : State) (a : Address) (x : Longword) :
    Unchanged { mem := true, draws := drawn } s (s.writeL a x) :=
  { Unchanged.writeElem s .long a ⟨0, x⟩ with draws := fun _ => by simp }

/-- What delivering a result does when it completes. -/
theorem writeDest_next {s t : State} {d : Dest} {x : Longword} (h : writeDest s d x = .next t) :
    (∃ n, d = .reg n ∧ t = s.setGeneral n x) ∨ ∃ a, d = .mem a ∧ t = s.writeL a x := by
  rcases writeDest_cases s d x with ⟨n, hd, e⟩ | ⟨a, hd, ⟨-, e⟩ | ⟨-, -, e⟩ | ⟨-, -, e⟩ | ⟨-, -, e⟩⟩ <;>
    rw [e] at h <;> cases h
  · exact .inl ⟨n, hd, rfl⟩
  · exact .inr ⟨a, hd, rfl⟩

/-- A result delivered is in its destination alone (R142). -/
theorem writeDest_unchanged (drawn : Bool) {s t : State} {d : Dest} {x : Longword} (h : writeDest s d x = .next t) :
    Unchanged (destWrites drawn d) s t := by
  rcases writeDest_next h with ⟨n, rfl, rfl⟩ | ⟨a, rfl, rfl⟩
  · exact Unchanged.setGeneral drawn s n x
  · exact Unchanged.writeL drawn s a x

theorem writeDest_keeps_wf {s t : State} {d : Dest} {x : Longword} (h : writeDest s d x = .next t)
    (wf : Memory.wf s.mem = true) : Memory.wf t.mem = true := by
  rcases writeDest_next h with ⟨n, -, rfl⟩ | ⟨a, -, rfl⟩
  · simpa using wf
  · exact State.wf_writeL wf a x

/-- What MFVP does when it completes: it delivers one longword, after drawing a value in the SYNC and MSYNC functions
(R142 to R149). -/
theorem moveFrom_next {n : Word} {d : Dest} {s t : State} (h : moveFrom n d s = .next t) :
    (∃ x, writeDest s d x = .next t) ∨
    ((n == regnumSYNC || n == regnumMSYNC) = true ∧
      ∃ x, writeDest { s with draws := s.draws + 1 } d x = .next t) := by
  unfold moveFrom syncResult at h
  split at h
  · exact .inl ⟨_, h⟩
  split at h
  · exact .inl ⟨_, h⟩
  split at h
  · exact .inl ⟨_, h⟩
  split at h
  · exact .inl ⟨_, h⟩
  split at h
  · next hn => exact .inr ⟨by simp [hn], _, h⟩
  split at h
  · next hn => exact .inr ⟨by simp [hn], _, h⟩
  · cases h

theorem moveFrom_unchanged {n : Word} {d : Dest} {s t : State} (h : moveFrom n d s = .next t) :
    Unchanged (destWrites (n == regnumSYNC || n == regnumMSYNC) d) s t := by
  rcases moveFrom_next h with ⟨x, hx⟩ | ⟨drawn, x, hx⟩
  · exact writeDest_unchanged _ hx
  · exact (Unchanged.withDraws (by cases d <;> exact drawn) s _).trans (writeDest_unchanged _ hx)

theorem moveFrom_keeps_wf {n : Word} {d : Dest} {s t : State} (h : moveFrom n d s = .next t)
    (wf : Memory.wf s.mem = true) : Memory.wf t.mem = true := by
  rcases moveFrom_next h with ⟨x, hx⟩ | ⟨-, x, hx⟩ <;> exact writeDest_keeps_wf hx wf

/-- What MTVP does when it completes: it writes one control register, VLR with a value of at most 64 (R150 to R154). -/
theorem moveTo_next {n : Word} {x : Longword} {s t : State} (h : moveTo n x s = .next t) :
    (n = regnumVCR ∧ t = { s with vcr := x.extractLsb' 0 7 }) ∨
    (n = regnumVLR ∧ x.toNat ≤ NELEM ∧ t = { s with vlr := x.extractLsb' 0 7 }) ∨
    ((n == regnumVMRLO || n == regnumVMRHI) = true ∧ ∃ m, t = { s with vmr := m }) := by
  unfold moveTo at h
  split at h
  · next hn =>
    split at h <;> cases h
    exact .inl ⟨hn, rfl⟩
  split at h
  · next hn =>
    split at h <;> cases h
    next hx => exact .inr (.inl ⟨hn, by omega, rfl⟩)
  split at h
  · next hn => cases h; exact .inr (.inr ⟨by simp [hn], _, rfl⟩)
  split at h
  · next hn => cases h; exact .inr (.inr ⟨by simp [hn], _, rfl⟩)
  · cases h

theorem moveTo_unchanged {n : Word} {x : Longword} {s t : State} (h : moveTo n x s = .next t) :
    Unchanged (writesOf (.mtvp n x)) s t := by
  rcases moveTo_next h with ⟨hn, rfl⟩ | ⟨hn, -, rfl⟩ | ⟨hn, m, rfl⟩
  · exact Unchanged.withVcr (beq_iff_eq.2 hn) s _
  · exact Unchanged.withVlr (beq_iff_eq.2 hn) s _
  · exact Unchanged.withVmr hn s m

theorem synchronize_next {n : Word} {s t : State} (h : synchronize n s = .next t) : t = s := by
  unfold synchronize at h
  split at h <;> cases h
  rfl

/-! ### Every instruction -/

/-- An instruction may write what the opcode-level instruction it stands for may. -/
theorem writesOf_congr {i j : Instr} (h : i.lower = j.lower) : writesOf i = writesOf j := by
  unfold writesOf
  rw [h]

/-- What an instruction that completes does: its loop, or a control register move. -/
theorem exec_next {i : Instr} {s t : State} (h : exec i s = .next t) :
    (∃ c, i.cntrl = some c ∧ LoopAnswer s c i.kind (.next t)) ∨
    (∃ n d, i.lower = .mfvp n d ∧ moveFrom n d s = .next t) ∨
    (∃ n x, i.lower = .mtvp n x ∧ moveTo n x s = .next t) ∨
    ∃ n, i.lower = .vsync n ∧ t = s := by
  by_cases hk : i.kind = .control
  · rw [← exec_lower] at h
    rcases control_lower i hk with ⟨n, d, hi⟩ | ⟨n, x, hi⟩ | ⟨n, hi⟩ <;> rw [hi] at h
    · exact .inr (.inl ⟨n, d, hi, h⟩)
    · exact .inr (.inr (.inl ⟨n, x, hi, h⟩))
    · exact .inr (.inr (.inr ⟨n, hi, synchronize_next h⟩))
  · obtain ⟨c, hc, loop, refused⟩ := exec_loop i s hk
    cases hw : i.lower.wellFormed with
    | true => exact .inl ⟨c, hc, h ▸ loop hw⟩
    | false =>
      obtain ⟨r, hr, -⟩ := refused hw
      rw [hr] at h
      cases h

theorem exec_unchanged {i : Instr} {s t : State} (h : exec i s = .next t) : Unchanged (writesOf i) s t := by
  rcases exec_next h with ⟨c, hc, loop⟩ | ⟨n, d, hi, hm⟩ | ⟨n, x, hi, hm⟩ | ⟨n, hi, rfl⟩
  · rw [writesOf_loop hc]
    exact loop.unchanged rfl
  · rw [writesOf_congr (j := .mfvp n d) hi]
    cases d <;> exact moveFrom_unchanged hm
  · rw [writesOf_congr (j := .mtvp n x) hi]
    exact moveTo_unchanged hm
  · exact Unchanged.refl _ t

theorem exec_keeps_wf {i : Instr} {s t : State} (h : exec i s = .next t) (wf : Memory.wf s.mem = true) :
    Memory.wf t.mem = true := by
  rcases exec_next h with ⟨c, -, loop⟩ | ⟨n, d, -, hm⟩ | ⟨n, x, -, hm⟩ | ⟨n, -, rfl⟩
  · exact loop.keeps_wf rfl wf
  · exact moveFrom_keeps_wf hm wf
  · rcases moveTo_next hm with ⟨-, rfl⟩ | ⟨-, -, rfl⟩ | ⟨-, m, rfl⟩ <;> exact wf
  · exact wf

theorem loopWrites_vlr (c : Cntrl) (k : Kind) : (loopWrites c k).vlr = false := by
  cases k <;> rfl

/-- Only MTVP writes VLR, and it writes at most 64 (R152). -/
theorem exec_keeps_vlr {i : Instr} {s t : State} (h : exec i s = .next t) (le : s.vlr.toNat ≤ NELEM) :
    t.vlr.toNat ≤ NELEM := by
  rcases exec_next h with ⟨c, -, loop⟩ | ⟨n, d, -, hm⟩ | ⟨n, x, -, hm⟩ | ⟨n, -, rfl⟩
  · rw [(loop.unchanged rfl).vlr (loopWrites_vlr c i.kind)]
    exact le
  · rw [(moveFrom_unchanged hm).vlr (by cases d <;> rfl)]
    exact le
  · rcases moveTo_next hm with ⟨-, rfl⟩ | ⟨-, hx, rfl⟩ | ⟨-, m, rfl⟩
    · exact le
    · have small : x.toNat ≤ 64 := hx
      show (x.extractLsb' 0 7).toNat ≤ 64
      rw [BitVec.extractLsb'_toNat]
      omega
    · exact le
  · exact le

theorem exec_keeps_inv {i : Instr} {s t : State} (h : exec i s = .next t) (inv : s.Inv) : t.Inv := by
  obtain ⟨wf, le⟩ := inv
  exact ⟨exec_keeps_wf h wf, exec_keeps_vlr h le⟩

end Machine

open Machine

/-- Settles O49: each instruction is a loop of its family or a control register move, and each of these writes what its
destinations are. -/
theorem onlyDestinationsWritten : Obligations.OnlyDestinationsWritten := by
  unfold Obligations.OnlyDestinationsWritten
  intro i s t h
  exact exec_unchanged h

/-- Settles O53: an empty list of elements ends every loop at once. -/
theorem zeroLengthChangesNothing : Obligations.ZeroLengthChangesNothing := by
  unfold Obligations.ZeroLengthChangesNothing
  intro i s hv wf hk
  obtain ⟨c, -, out⟩ := exec_loop i s hk
  exact (out.loop (i.lower_wellFormed wf)).of_vlr_zero hv

/-- Settles O57: reading operands changes the scalar registers alone, the instruction keeps the invariant, and falling
through changes the pc alone. -/
theorem stepKeepsInvariant : Obligations.StepKeepsInvariant := by
  unfold Obligations.StepKeepsInvariant
  intro s t ⟨wf, le⟩ h
  obtain ⟨raw, n, i, s', u, -, -, hr, hu, rfl⟩ := step_next h
  obtain ⟨vs, -, -, r, rfl⟩ := resolveInstr_next hr
  obtain ⟨wf', le'⟩ : u.Inv := exec_keeps_inv hu ⟨wf, le⟩
  exact ⟨wf', le'⟩

end Sys2Proof
end

section
/-! How many bytes a parsed instruction has; a step in terms of its decoded or resolved instruction; the reset state. -/

namespace Sys2Proof

/-! ### Bytes consumed -/

theorem takeWord_length {bs : List Byte} {p : Word × List Byte} (h : takeWord bs = .ok p) :
    p.2.length + 2 = bs.length := by
  unfold takeWord at h
  split at h <;> cases h
  rfl

theorem takeLong_length {bs : List Byte} {p : Longword × List Byte} (h : takeLong bs = .ok p) :
    p.2.length + 4 = bs.length := by
  unfold takeLong at h
  split at h <;> cases h
  rfl

theorem takeQuad_length {bs : List Byte} {p : Quadword × List Byte} (h : takeQuad bs = .ok p) :
    p.2.length + 8 = bs.length := by
  unfold takeQuad at h
  split at h <;> cases h
  rfl

theorem takeDisp_length {mode : Nat} {bs : List Byte} {p : Longword × List Byte} (h : takeDisp mode bs = .ok p) :
    p.2.length ≤ bs.length := by
  unfold takeDisp at h
  split at h
  · cases h
  · split at h
    · cases h; simp
    · split at h
      · split at h
        · next hw => cases h; have := takeWord_length hw; simp only at this ⊢; omega
        · cases h
      · have := takeLong_length h; omega

theorem parseMem_length {mode : Nat} {n : GReg} {bs : List Byte} {p : MemMode × List Byte}
    (h : parseMem mode n bs = .ok p) : p.2.length ≤ bs.length := by
  unfold parseMem at h
  split at h
  · cases h; exact le_rfl
  split at h
  · cases h; exact le_rfl
  split at h
  · split at h <;> cases h; exact le_rfl
  split at h
  · split at h
    · split at h
      · next hl => cases h; have := takeLong_length hl; simp only at this ⊢; omega
      · cases h
    · cases h; exact le_rfl
  split at h
  · split at h
    · next hd => cases h; exact takeDisp_length hd
    · cases h
  · cases h

/-- A specifier that computes an address takes at least one byte. -/
theorem parseAddress_length {bs : List Byte} {p : MemMode × List Byte} (h : parseAddress bs = .ok p) :
    p.2.length < bs.length := by
  induction bs generalizing p with
  | nil => cases h
  | cons b rest ih =>
    simp only [parseAddress] at h
    split at h
    · split at h
      · next hm => cases h; have := ih hm; simp only [List.length_cons] at this ⊢; omega
      · cases h
    · have := parseMem_length h
      simp only [List.length_cons]
      omega

theorem parseImmediate_length {k : OperandKind} {bs : List Byte} {p : Spec × List Byte}
    (h : parseImmediate k bs = .ok p) : p.2.length ≤ bs.length := by
  cases k <;> simp only [parseImmediate] at h
  case rw => split at h <;> cases h; next hw => have := takeWord_length hw; simp only at this ⊢; omega
  case rl => split at h <;> cases h; next hl => have := takeLong_length hl; simp only at this ⊢; omega
  case rq => split at h <;> cases h; next hq => have := takeQuad_length hq; simp only at this ⊢; omega
  case ab => cases h
  case wl => cases h

/-- A specifier takes at least one byte (R83). -/
theorem parseSpec_length {k : OperandKind} {bs : List Byte} {p : Spec × List Byte} (h : parseSpec k bs = .ok p) :
    p.2.length < bs.length := by
  unfold parseSpec at h
  split at h
  · cases h
  · next b rest =>
    simp only at h
    split at h
    · split at h <;> cases h; simp
    split at h
    · split at h <;> cases h; simp
    split at h
    · have := parseImmediate_length h
      simp only [List.length_cons]
      omega
    · split at h
      · next hm => cases h; exact parseAddress_length hm
      · cases h

theorem parseSpecs_length {total : Nat} {ks : List OperandKind} {bs : List Byte} {p : List Specifier × List Byte}
    (h : parseSpecs total ks bs = .ok p) : p.2.length + ks.length ≤ bs.length := by
  induction ks generalizing bs p with
  | nil => cases h; exact le_rfl
  | cons k ks ih =>
    simp only [parseSpecs] at h
    split at h
    · cases h
    · next hp =>
      split at h
      · cases h
      · next hq =>
        cases h
        have one := parseSpec_length hp
        have others := ih hq
        simp only [List.length_cons] at one others ⊢
        omega

theorem Builder.kinds_nonempty (b : Builder) : 1 ≤ b.kinds.length := by
  cases b <;> simp [Builder.kinds]

/-- An instruction is two opcode bytes and at least one of an operand, all of them among the bytes given (R81, R104). -/
theorem parse_length {bs : List Byte} {raw : RawInstr} {n : Nat} (h : parse bs = .ok (raw, n)) :
    3 ≤ n ∧ n ≤ bs.length := by
  unfold parse at h
  split at h
  · cases h
  · cases h
  · split at h
    · split at h
      · cases h
      · next build _ =>
        split at h
        · cases h
        · next hs =>
          cases h
          have used := parseSpecs_length hs
          have := build.kinds_nonempty
          simp only [List.length_cons] at used ⊢
          omega
    · cases h

namespace Machine

/-! ### Steps -/

/-- What a step does with an instruction of `n` bytes: it runs it to completion and falls through, or stops as it stops. -/
def State.runInstr (s : State) (n : Nat) (i : Instr) : Outcome :=
  match exec i s with
  | .next t => .next (t.fallThrough n)
  | .fault r => .fault r
  | .refused r => .refused r

theorem step_crossesTop {s : State} {raw : RawInstr} {n : Nat} (hp : parse s.fetchBytes = .ok (raw, n))
    (top : 2 ^ 32 < s.pc.toNat + n) : step s = .refused .crossesTop := by
  simp only [step, hp]
  rw [if_pos top]

/-- A step at an instruction that ends within the address space does what its operands make of it. -/
theorem step_parsed {s : State} {raw : RawInstr} {n : Nat} (hp : parse s.fetchBytes = .ok (raw, n))
    (fits : s.pc.toNat + n ≤ 2 ^ 32) :
    step s =
      match s.resolveInstr raw with
      | .next (i, s') => s'.runInstr n i
      | .fault r => .fault r
      | .refused r => .refused r := by
  simp only [step, hp]
  rw [if_neg (by omega)]
  cases hr : s.resolveInstr raw with
  | next p =>
    obtain ⟨i, s'⟩ := p
    simp only [State.runInstr]
    cases exec i s' <;> rfl
  | fault r => rfl
  | refused r => rfl

theorem resolveInstr_apply {s s' : State} {raw : RawInstr} {vs : List OpVal} {i : Instr}
    (hr : resolveAll s raw.build.kinds raw.specs = .next (vs, s')) (ha : raw.build.apply vs = some i) :
    s.resolveInstr raw = .next (i, s') := by
  simp only [State.resolveInstr, hr, ha]

end Machine

open Machine

/-- Settles O56: a completed step parsed at least three bytes and executed an instruction that leaves the pc, the text and
the parameters alone. -/
theorem stepFallsThrough : Obligations.StepFallsThrough := by
  unfold Obligations.StepFallsThrough
  intro s t h
  obtain ⟨raw, n, i, s', u, hp, top, hr, hu, rfl⟩ := step_next h
  obtain ⟨vs, -, -, r, rfl⟩ := resolveInstr_next hr
  obtain ⟨least, most⟩ := parse_length hp
  have frame := exec_unchanged hu
  exact ⟨raw, n, hp, least, most, top, by rw [State.fallThrough_pc, frame.pc], frame.text, frame.textBase, frame.access,
    frame.devices⟩

/-- Settles O55: bytes that decode have static operands, which are read without a change of state; and operand values of
the sorts that a format asks for always make an instruction. -/
theorem stepRunsDecoded : Obligations.StepRunsDecoded := by
  unfold Obligations.StepRunsDecoded
  constructor
  · intro s i n hd
    obtain ⟨raw, vs, hp, hv, ha⟩ := decode_ok hd
    split
    · next fits => rw [step_parsed hp fits, resolveInstr_apply (resolveAll_static hv s) ha]; rfl
    · next top => exact step_crossesTop hp (by omega)
  · intro s raw n hp
    refine ⟨step_crossesTop hp, fun fits => ⟨fun vs s' hv => ?_, fun r hr => ?_, fun r hr => ?_⟩⟩
    · obtain ⟨i, ha⟩ := Builder.apply_fits (resolveAll_fits (parse_fits hp) hv)
      refine ⟨resolveAll_next hv, i, ha, ?_⟩
      rw [step_parsed hp fits, resolveInstr_apply hv ha]
      rfl
    · rw [step_parsed hp fits]
      simp only [State.resolveInstr, hr]
    · rw [step_parsed hp fits]
      simp only [State.resolveInstr, hr]

/-- Settles O58: no memory is listed and VLR is 0. -/
theorem resetHasInvariant : Obligations.ResetHasInvariant := by
  unfold Obligations.ResetHasInvariant
  exact ⟨rfl, Nat.zero_le NELEM⟩

/-- Settles O59: a vector of equal elements has that element everywhere, and memory that lists nothing reads 0. -/
theorem resetState : Obligations.ResetState := by
  unfold Obligations.ResetState
  refine ⟨fun n i => ?_, rfl, rfl, rfl, fun _ => rfl, rfl, fun n => ?_, rfl⟩
  · simp [State.elem, State.reset]
  · simp [State.reg, State.reset]

end Sys2Proof
end

section
/-! The floating formats: the fields of a packed datum, and the number a datum stands for (R42 to R46). -/

namespace Sys2Proof.Machine

/-! ### Fields -/

theorem reservedBits_iff (t : FType) (x : BitVec t.dtype.width) :
    ReservedBits t x ↔ fSign t x = true ∧ fExp t x = 0 := by
  cases t <;> exact and_congr Iff.rfl BitVec.toNat_inj.symm

theorem zeroBits_iff (t : FType) (x : BitVec t.dtype.width) :
    ZeroBits t x ↔ fSign t x = false ∧ fExp t x = 0 := by
  cases t <;> exact and_congr Iff.rfl BitVec.toNat_inj.symm

theorem fFrac_lt (t : FType) (x : BitVec t.dtype.width) : fFrac t x < 2 ^ fFracBits t := by
  cases t <;> exact BitVec.isLt _

/-- A field of a concatenation that lies in its low part. -/
theorem extract_append_low {a b : Nat} (x : BitVec a) (y : BitVec b) (i w : Nat) (h : i + w ≤ b) :
    (x ++ y).extractLsb' i w = y.extractLsb' i w := by
  apply BitVec.eq_of_getLsbD_eq
  intro j hj
  simp only [BitVec.getLsbD_extractLsb', BitVec.getLsbD_append]
  rw [if_pos (by omega)]

/-- A field of a concatenation that lies in its high part. -/
theorem extract_append_high {a b : Nat} (x : BitVec a) (y : BitVec b) (i w : Nat) (h : b ≤ i) :
    (x ++ y).extractLsb' i w = x.extractLsb' (i - b) w := by
  apply BitVec.eq_of_getLsbD_eq
  intro j hj
  simp only [BitVec.getLsbD_extractLsb', BitVec.getLsbD_append]
  rw [if_neg (by omega), show i + j - b = i - b + j by omega]

/-! A datum is packed as further words `hi`, the sign, the exponent `e` and the most significant fraction part `f`. -/

section
variable {h a b : Nat} (hi : BitVec h) (s : Bool) (e : BitVec a) (f : BitVec b)

theorem packed_sign : (hi ++ BitVec.ofBool s ++ e ++ f).getLsbD (a + b) = s := by
  rw [BitVec.getLsbD_append, if_neg (by omega), BitVec.getLsbD_append, if_neg (by omega), BitVec.getLsbD_append,
    if_pos (by omega)]
  simp

theorem packed_exponent : (hi ++ BitVec.ofBool s ++ e ++ f).extractLsb' b a = e := by
  rw [extract_append_high _ _ _ _ le_rfl, extract_append_low _ _ _ _ (by omega)]
  simp

theorem packed_fraction : (hi ++ BitVec.ofBool s ++ e ++ f).extractLsb' 0 b = f := by
  rw [extract_append_low _ _ _ _ (by omega)]
  simp

theorem packed_further {i j : Nat} (w : Nat) (hj : j = i + 1 + a + b) :
    (hi ++ BitVec.ofBool s ++ e ++ f).extractLsb' j w = hi.extractLsb' i w := by
  subst hj
  rw [extract_append_high _ _ _ _ (by omega), extract_append_high _ _ _ _ (by omega),
    extract_append_high _ _ _ _ (by omega)]
  congr 1
  omega

end

theorem toNat_append_add {a b : Nat} (x : BitVec a) (y : BitVec b) : (x ++ y).toNat = x.toNat * 2 ^ b + y.toNat := by
  rw [BitVec.toNat_append, ← Nat.shiftLeft_add_eq_or_of_lt y.isLt, Nat.shiftLeft_eq]

/-- The three further words of a D or G fraction, most significant first. -/
theorem three_words (p q r : Word) :
    (p ++ q ++ r).extractLsb' 0 16 = r ∧ (p ++ q ++ r).extractLsb' 16 16 = q ∧ (p ++ q ++ r).extractLsb' 32 16 = p := by
  refine ⟨?_, ?_, ?_⟩
  · rw [extract_append_low _ _ _ _ (by omega)]; simp
  · rw [extract_append_high _ _ _ _ (by omega), extract_append_low _ _ _ _ (by omega)]; simp
  · rw [extract_append_high _ _ _ _ (by omega), extract_append_high _ _ _ _ (by omega)]; simp

theorem fSign_fPack (t : FType) (s : Bool) (e m : Nat) : fSign t (fPack t s e m) = s := by
  cases t <;> exact packed_sign _ s _ _

theorem fExp_fPack (t : FType) (s : Bool) {e : Nat} (he : e ≤ fMaxExp t) (m : Nat) : fExp t (fPack t s e m) = e := by
  have field : ∀ w, e < 2 ^ w → (BitVec.ofNat w e).toNat = e := fun w hw => by
    rw [BitVec.toNat_ofNat, Nat.mod_eq_of_lt hw]
  cases t <;> simp only [fMaxExp] at he <;>
    exact (congrArg BitVec.toNat (packed_exponent _ s _ _)).trans (field _ (by omega))

/-- A fraction of `b` bits in the first word and three further words, put together again. -/
theorem toNat_fraction_words {b m : Nat} (hm : m < 2 ^ (b + 48)) :
    (BitVec.ofNat b (m / 2 ^ 48) ++ BitVec.ofNat 16 (m / 2 ^ 32) ++ BitVec.ofNat 16 (m / 2 ^ 16) ++
      BitVec.ofNat 16 m).toNat = m := by
  have top : m / 2 ^ 48 % 2 ^ b = m / 2 ^ 48 :=
    Nat.mod_eq_of_lt (by rw [Nat.div_lt_iff_lt_mul (by omega), ← pow_add]; exact hm)
  simp only [toNat_append_add, BitVec.toNat_ofNat, top]
  omega

/-- The fraction of a datum of four words, as D and G are packed. -/
theorem toNat_quad_fraction {a b m : Nat} (s : Bool) (e : BitVec a) (hab : a + b = 15) (hm : m < 2 ^ (b + 48)) :
    let x := BitVec.ofNat 16 m ++ BitVec.ofNat 16 (m / 2 ^ 16) ++ BitVec.ofNat 16 (m / 2 ^ 32) ++ BitVec.ofBool s ++ e ++
      BitVec.ofNat b (m / 2 ^ 48)
    (x.extractLsb' 0 b ++ x.extractLsb' 16 16 ++ x.extractLsb' 32 16 ++ x.extractLsb' 48 16).toNat = m := by
  obtain ⟨w0, w1, w2⟩ := three_words (BitVec.ofNat 16 m) (BitVec.ofNat 16 (m / 2 ^ 16)) (BitVec.ofNat 16 (m / 2 ^ 32))
  intro x
  rw [packed_fraction, packed_further (i := 0) _ _ _ _ _ (by omega), packed_further (i := 16) _ _ _ _ _ (by omega),
    packed_further (i := 32) _ _ _ _ _ (by omega), w0, w1, w2]
  exact toNat_fraction_words hm

theorem fFrac_fPack (t : FType) (s : Bool) (e : Nat) {m : Nat} (hm : m < 2 ^ fFracBits t) :
    fFrac t (fPack t s e m) = m := by
  cases t with
  | f =>
    have first : (fPack .f s e m).extractLsb' 0 7 = BitVec.ofNat 7 (m / 2 ^ 16) := packed_fraction _ s _ _
    have second : (fPack .f s e m).extractLsb' 16 16 = BitVec.ofNat 16 m :=
      (packed_further _ s _ _ (i := 0) 16 rfl).trans (by simp)
    simp only [fFracBits] at hm
    simp only [fFrac, first, second, toNat_append_add, BitVec.toNat_ofNat]
    omega
  | d => exact toNat_quad_fraction s (BitVec.ofNat 8 e) rfl hm
  | g => exact toNat_quad_fraction s (BitVec.ofNat 11 e) rfl hm

/-! ### Values -/

theorem valueOf_num {t : FType} {x : BitVec t.dtype.width} {m k : Int} (h : fValue t x = .num m k) :
    valueOf t x = m * (2 : ℚ) ^ k := by
  simp [valueOf, h]

/-- A datum with a non-zero exponent field stands for a number with that exponent and its fraction behind a leading 1. -/
theorem fValue_of_exp {t : FType} {x : BitVec t.dtype.width} (h : fExp t x ≠ 0) :
    fValue t x = .num ((if fSign t x then -1 else 1) * (2 ^ fFracBits t + fFrac t x))
      ((fExp t x : Int) - fBias t - (fFracBits t + 1)) := by
  cases hs : fSign t x <;> simp [fValue, h, hs]

/-- A datum is a reserved operand, or stands for a number whose significand has the type's precision and is 0 exactly for
a zero. -/
theorem fValue_cases (t : FType) (x : BitVec t.dtype.width) :
    (ReservedBits t x ∧ fValue t x = .reserved) ∨
    (¬ ReservedBits t x ∧ ∃ m k, fValue t x = .num m k ∧ (m = 0 ↔ ZeroBits t x) ∧ |m| < 2 ^ (fFracBits t + 1)) := by
  rw [reservedBits_iff, zeroBits_iff]
  by_cases he : fExp t x = 0
  · cases hs : fSign t x with
    | true => exact .inl ⟨⟨rfl, he⟩, by simp [fValue, he, hs]⟩
    | false => exact .inr ⟨by simp, 0, 0, by simp [fValue, he, hs], by simp [he], by simp⟩
  · refine .inr ⟨fun h => he h.2, _, _, fValue_of_exp he, ?_, ?_⟩
    · have pos : (0 : ℤ) < 2 ^ fFracBits t + fFrac t x := by positivity
      have : (if fSign t x then -1 else 1 : ℤ) ≠ 0 := by split <;> decide
      exact iff_of_false (mul_ne_zero this pos.ne') fun h => he h.2
    · have lt : (fFrac t x : ℤ) < 2 ^ fFracBits t := by exact_mod_cast fFrac_lt t x
      have pos : (0 : ℤ) ≤ 2 ^ fFracBits t + fFrac t x := by positivity
      have : |(if fSign t x then -1 else 1 : ℤ)| = 1 := by split <;> rfl
      rw [abs_mul, this, one_mul, abs_of_nonneg pos, pow_succ]
      linarith

theorem fValue_reserved_iff (t : FType) (x : BitVec t.dtype.width) : fValue t x = .reserved ↔ ReservedBits t x := by
  rcases fValue_cases t x with ⟨h, e⟩ | ⟨h, m, k, e, -⟩ <;> simp [h, e]

/-- A datum that is no reserved operand stands for a number. -/
theorem fValue_of_not_reserved {t : FType} {x : BitVec t.dtype.width} (h : ¬ ReservedBits t x) :
    ∃ m k, fValue t x = .num m k ∧ (m = 0 ↔ ZeroBits t x) ∧ |m| < 2 ^ (fFracBits t + 1) := by
  rcases fValue_cases t x with ⟨h', -⟩ | ⟨-, n⟩
  · exact absurd h' h
  · exact n

/-- A packed datum with an exponent field in range is no reserved operand, and stands for what it was packed from. -/
theorem valueOf_fPack {t : FType} {s : Bool} {e m : Nat} (h1 : 1 ≤ e) (he : e ≤ fMaxExp t) (hm : m < 2 ^ fFracBits t) :
    ¬ ReservedBits t (fPack t s e m) ∧
    valueOf t (fPack t s e m) =
      (if s then -1 else 1) * ((2 ^ fFracBits t + m) * (2 : ℚ) ^ ((e : ℤ) - fBias t - (fFracBits t + 1))) := by
  have hexp : fExp t (fPack t s e m) ≠ 0 := by rw [fExp_fPack t s he]; omega
  refine ⟨fun h => hexp ((reservedBits_iff t _).1 h).2, ?_⟩
  rw [valueOf_num (fValue_of_exp hexp), fSign_fPack, fExp_fPack t s he, fFrac_fPack t s e hm]
  cases s <;> push_cast <;> ring

theorem zero_not_reserved (t : FType) : ¬ ReservedBits t (0 : BitVec t.dtype.width) := by
  cases t <;> simp [ReservedBits]

theorem valueOf_zero (t : FType) : valueOf t (0 : BitVec t.dtype.width) = 0 := by
  cases t <;> simp [valueOf, fValue, fExp, fSign]

end Sys2Proof.Machine
end

section
/-! Exact numbers behind the floating operations: scaling, order, and the integer a number comes to (R45, R46). -/

namespace Sys2Proof.Machine

/-! ### Scaling -/

theorem two_zpow_pos (k : ℤ) : (0 : ℚ) < 2 ^ k := zpow_pos two_pos k

theorem two_zpow_of_nonneg {k : ℤ} (h : 0 ≤ k) : (2 : ℚ) ^ k = 2 ^ k.toNat := by
  rw [← zpow_natCast, Int.toNat_of_nonneg h]

/-- A power of two as a quotient of natural powers, as the model scales. -/
theorem two_zpow_toNat (k : ℤ) : (2 : ℚ) ^ k = 2 ^ k.toNat / 2 ^ (-k).toNat := by
  rw [← zpow_natCast, ← zpow_natCast, ← zpow_sub₀ two_ne_zero]
  congr 1
  omega

/-- A number brought to a smaller exponent is the same number. -/
theorem fScale_value (m : ℤ) {k k' : ℤ} (h : k' ≤ k) : (fScale m k k' : ℚ) * 2 ^ k' = m * 2 ^ k := by
  rw [fScale]
  push_cast
  rw [mul_assoc, ← two_zpow_of_nonneg (by omega : 0 ≤ k - k'), ← zpow_add₀ two_ne_zero, sub_add_cancel]

/-- Numbers brought to their smaller exponent stand to each other as they did. -/
theorem fScale_lt_iff (a b j k : ℤ) :
    fScale a j (min j k) < fScale b k (min j k) ↔ (a : ℚ) * 2 ^ j < b * 2 ^ k := by
  rw [← fScale_value a (min_le_left j k), ← fScale_value b (min_le_right j k),
    mul_lt_mul_iff_left₀ (two_zpow_pos _), Int.cast_lt]

theorem fScale_eq_iff (a b j k : ℤ) :
    fScale a j (min j k) = fScale b k (min j k) ↔ (a : ℚ) * 2 ^ j = b * 2 ^ k := by
  rw [← fScale_value a (min_le_left j k), ← fScale_value b (min_le_right j k),
    mul_left_inj' (two_zpow_pos _).ne', Int.cast_inj]

/-! ### Answers -/

theorem fRound_answer (t : FType) (neg : Bool) (n d : Nat) (k : Int) :
    fRound t neg n d k ≠ .reservedOperand ∧ fRound t neg n d k ≠ .divideByZero := by
  simp only [fRound]
  repeat' split
  all_goals exact ⟨nofun, nofun⟩

theorem toCvt_reserved {w : Nat} {x : FPResult w} (h : x ≠ .reservedOperand ∧ x ≠ .divideByZero) :
    toCvt x ≠ .reservedOperand := by
  obtain ⟨reserved, zero⟩ := h
  cases x with
  | value | overflow | underflow => exact nofun
  | reservedOperand => exact absurd rfl reserved
  | divideByZero => exact absurd rfl zero

/-- Arithmetic on numbers answers divide by zero for a zero divisor, and never reserved operand. -/
theorem fArith_num {op : FOp} {t : FType} {x y : BitVec t.dtype.width} {a j b k : ℤ} (hx : fValue t x = .num a j)
    (hy : fValue t y = .num b k) :
    fArith op t x y ≠ .reservedOperand ∧ (fArith op t x y = .divideByZero ↔ op = .div ∧ b = 0) := by
  unfold fArith
  rw [hx, hy]
  cases op with
  | add | sub | mul =>
    obtain ⟨reserved, zero⟩ := fRound_answer t _ _ _ _
    exact ⟨reserved, iff_of_false zero nofun⟩
  | div =>
    by_cases hb : b = 0
    · simp [hb]
    · obtain ⟨reserved, zero⟩ := fRound_answer t (decide (a < 0) != decide (b < 0)) a.natAbs b.natAbs (j - k)
      simp [hb, reserved, zero]

theorem fArith_reserved_iff (op : FOp) (t : FType) (x y : BitVec t.dtype.width) :
    fArith op t x y = .reservedOperand ↔ ReservedBits t x ∨ ReservedBits t y := by
  rcases fValue_cases t x with ⟨hx, ex⟩ | ⟨hx, a, j, ex, -⟩
  · simp [fArith, ex, hx]
  rcases fValue_cases t y with ⟨hy, ey⟩ | ⟨hy, b, k, ey, -⟩
  · simp [fArith, ex, ey, hy]
  · exact iff_of_false (fArith_num ex ey).1 (by simp [hx, hy])

theorem fArith_divideByZero_iff (op : FOp) (t : FType) (x y : BitVec t.dtype.width) :
    fArith op t x y = .divideByZero ↔ op = .div ∧ ¬ ReservedBits t x ∧ ¬ ReservedBits t y ∧ ZeroBits t y := by
  rcases fValue_cases t x with ⟨hx, ex⟩ | ⟨hx, a, j, ex, -⟩
  · simp [fArith, ex, hx]
  rcases fValue_cases t y with ⟨hy, ey⟩ | ⟨hy, b, k, ey, hb, -⟩
  · simp [fArith, ex, ey, hy]
  · rw [(fArith_num ex ey).2, hb]
    simp [hx, hy]

/-- Comparison of numbers orders them. -/
theorem fCompare_num {t : FType} {x y : BitVec t.dtype.width} {a j b k : ℤ} (hx : fValue t x = .num a j)
    (hy : fValue t y = .num b k) :
    fCompare t x y = if valueOf t x < valueOf t y then .less else if valueOf t x = valueOf t y then .equal else .greater := by
  unfold fCompare
  rw [hx, hy, valueOf_num hx, valueOf_num hy]
  simp only [fScale_lt_iff, fScale_eq_iff]

theorem fCompare_reserved_iff (t : FType) (x y : BitVec t.dtype.width) :
    fCompare t x y = .reservedOperand ↔ ReservedBits t x ∨ ReservedBits t y := by
  rcases fValue_cases t x with ⟨hx, ex⟩ | ⟨hx, a, j, ex, -⟩
  · simp [fCompare, ex, hx]
  rcases fValue_cases t y with ⟨hy, ey⟩ | ⟨hy, b, k, ey, -⟩
  · simp [fCompare, ex, ey, hy]
  · rw [fCompare_num ex ey]
    refine iff_of_false ?_ (by simp [hx, hy])
    repeat' split
    all_goals exact nofun

theorem fToLong_reserved_iff (rounded : Bool) (t : FType) (x : BitVec t.dtype.width) :
    fToLong rounded t x = .reservedOperand ↔ ReservedBits t x := by
  rcases fValue_cases t x with ⟨hx, ex⟩ | ⟨hx, a, j, ex, -⟩
  · simp [fToLong, ex, hx]
  · refine iff_of_false ?_ hx
    simp only [fToLong, ex]
    split <;> exact nofun

theorem fToFloat_reserved_iff (t u : FType) (x : BitVec t.dtype.width) :
    fToFloat t u x = .reservedOperand ↔ ReservedBits t x := by
  rcases fValue_cases t x with ⟨hx, ex⟩ | ⟨hx, a, j, ex, -⟩
  · simp [fToFloat, ex, hx]
  · refine iff_of_false ?_ hx
    simp only [fToFloat, ex]
    exact toCvt_reserved (fRound_answer u _ _ _ _)

/-- A conversion answers reserved operand exactly for one (R46). -/
theorem fConvert_reserved_iff (f : CvtFunc) (x : BitVec f.src.width) :
    fConvert f x = .reservedOperand ↔ ReservedDatum f.src x := by
  cases f with
  | cvtlf | cvtld | cvtlg => exact iff_of_false (toCvt_reserved (fRound_answer _ _ _ _ _)) id
  | cvtfl | cvtrfl => exact fToLong_reserved_iff _ .f x
  | cvtdl | cvtrdl => exact fToLong_reserved_iff _ .d x
  | cvtgl | cvtrgl => exact fToLong_reserved_iff _ .g x
  | cvtfd | cvtfg => exact fToFloat_reserved_iff .f _ x
  | cvtdf => exact fToFloat_reserved_iff .d .f x
  | cvtgf => exact fToFloat_reserved_iff .g .f x

/-! ### Rounding to an integer -/

/-- Division of natural numbers to the nearest, a tie going up. -/
theorem roundDiv_eq_floor (n : Nat) {d : Nat} (hd : 0 < d) : (roundDiv n d : ℤ) = ⌊(n : ℚ) / d + 1 / 2⌋ := by
  have hd' : (d : ℚ) ≠ 0 := by positivity
  have : (n : ℚ) / d + 1 / 2 = ((2 * n + d : ℕ) : ℚ) / ((2 * d : ℕ) : ℚ) := by
    push_cast
    field_simp
  rw [this, Rat.floor_natCast_div_natCast, roundDiv]
  push_cast
  rfl

/-- A fraction scaled by a power of two, as the model scales. -/
theorem scaled_fraction (n d : Nat) (k : ℤ) :
    ((n * 2 ^ k.toNat : ℕ) : ℚ) / ((d * 2 ^ (-k).toNat : ℕ) : ℚ) = n / d * 2 ^ k := by
  rw [two_zpow_toNat k]
  push_cast
  rw [mul_div_mul_comm]

theorem abs_value (m k : ℤ) : |(m : ℚ) * 2 ^ k| = m.natAbs * 2 ^ k := by
  rw [abs_mul, abs_of_pos (two_zpow_pos k), Nat.cast_natAbs, Int.cast_abs]

theorem value_neg_iff (m k : ℤ) : (m : ℚ) * 2 ^ k < 0 ↔ m < 0 := by
  rw [← Int.cast_lt_zero (R := ℚ), mul_neg_iff]
  simp [two_zpow_pos k, (two_zpow_pos k).le]

/-- The model's integer is the one of the real number (R46). -/
theorem fToInt_eq (rounded : Bool) (m k : ℤ) : fToInt rounded m k = toInteger rounded (m * 2 ^ k) := by
  have scaled : |(m : ℚ) * 2 ^ k| = ((m.natAbs * 2 ^ k.toNat : ℕ) : ℚ) / ((2 ^ (-k).toNat : ℕ) : ℚ) := by
    have := scaled_fraction m.natAbs 1 k
    rw [Nat.cast_one, div_one, one_mul] at this
    rw [this, abs_value]
  have magnitude : ((if rounded then roundDiv (m.natAbs * 2 ^ k.toNat) (2 ^ (-k).toNat)
      else m.natAbs * 2 ^ k.toNat / 2 ^ (-k).toNat : ℕ) : ℤ) = ⌊|(m : ℚ) * 2 ^ k| + if rounded then 1 / 2 else 0⌋ := by
    rw [scaled]
    cases rounded with
    | true => exact roundDiv_eq_floor _ (by positivity)
    | false => simp only [Bool.false_eq_true, if_false, add_zero, Rat.floor_natCast_div_natCast, Int.natCast_ediv]
  simp only [fToInt, toInteger, value_neg_iff, ← magnitude]

/-- A conversion of a number to longword (R46, R366). -/
theorem fToLong_num (rounded : Bool) {t : FType} {x : BitVec t.dtype.width} (h : ¬ ReservedBits t x) :
    fToLong rounded t x = longwordResult (toInteger rounded (valueOf t x)) := by
  obtain ⟨m, k, hv, -⟩ := fValue_of_not_reserved h
  simp only [fToLong, hv, valueOf_num hv, fToInt_eq, longwordResult]
  by_cases fits : -2 ^ 31 ≤ toInteger rounded (m * 2 ^ k) ∧ toInteger rounded (m * 2 ^ k) ≤ 2 ^ 31 - 1
  · rw [if_pos fits, if_neg (by omega)]
  · rw [if_neg fits, if_pos (by omega)]

end Sys2Proof.Machine

namespace Sys2Proof
open Machine

/-- Settles O23: a datum with sign 1 and exponent field 0 stands for no number, and only numbers are rounded or divided. -/
theorem reservedOperandAndZeroDivisor : Obligations.ReservedOperandAndZeroDivisor := by
  unfold Obligations.ReservedOperandAndZeroDivisor
  exact ⟨fun op ty x y => ⟨fArith_reserved_iff op ty x y, fArith_divideByZero_iff op ty x y, fCompare_reserved_iff ty x y⟩,
    fConvert_reserved_iff⟩

/-- Settles O25: two numbers are compared after both are brought to the smaller of their exponents. -/
theorem floatCompareOrdersValues : Obligations.FloatCompareOrdersValues := by
  unfold Obligations.FloatCompareOrdersValues
  intro ty x y hx hy
  obtain ⟨a, j, ex, -⟩ := fValue_of_not_reserved hx
  obtain ⟨b, k, ey, -⟩ := fValue_of_not_reserved hy
  have cmp : vaxFP.cmp ty x y = _ := fCompare_num ex ey
  rw [cmp]
  rcases lt_trichotomy (valueOf ty x) (valueOf ty y) with h | h | h
  · simp [h, h.ne, h.not_gt]
  · simp [h]
  · simp [h, h.ne', h.not_gt]

/-- Settles O40: the six conversions share one function, whose integer is that of the real value. -/
theorem conversionsToLongword : Obligations.ConversionsToLongword := by
  unfold Obligations.ConversionsToLongword
  exact ⟨fun x h => ⟨fToLong_num false h, fToLong_num true h⟩, fun x h => ⟨fToLong_num false h, fToLong_num true h⟩,
    fun x h => ⟨fToLong_num false h, fToLong_num true h⟩⟩

end Sys2Proof
end

section
/-! Floating results are rounded once, to the nearest datum (R45): the significand of the model's rounding lies in one binade,
its integer is the nearest, and every datum is on that integer's grid or below its binade. -/

namespace Sys2Proof.Machine

/-! ### The significand -/

/-- A fraction against the power of two that its parts' lengths give. -/
theorem fraction_binade {n d : Nat} (hn : 0 < n) (hd : 0 < d) :
    (2 : ℚ) ^ ((Nat.log2 n : ℤ) - Nat.log2 d - 1) < n / d ∧ (n : ℚ) / d < 2 ^ ((Nat.log2 n : ℤ) - Nat.log2 d + 1) := by
  have hd' : (0 : ℚ) < d := by exact_mod_cast hd
  have nlow : (2 : ℚ) ^ (Nat.log2 n : ℤ) ≤ n := by
    rw [zpow_natCast]; exact_mod_cast Nat.log2_self_le hn.ne'
  have nhigh : (n : ℚ) < 2 ^ ((Nat.log2 n : ℤ) + 1) := by
    rw [← Nat.cast_succ, zpow_natCast]; exact_mod_cast Nat.lt_log2_self
  have dlow : (2 : ℚ) ^ (Nat.log2 d : ℤ) ≤ d := by
    rw [zpow_natCast]; exact_mod_cast Nat.log2_self_le hd.ne'
  have dhigh : (d : ℚ) < 2 ^ ((Nat.log2 d : ℤ) + 1) := by
    rw [← Nat.cast_succ, zpow_natCast]; exact_mod_cast Nat.lt_log2_self
  constructor
  · rw [lt_div_iff₀ hd']
    calc (2 : ℚ) ^ ((Nat.log2 n : ℤ) - Nat.log2 d - 1) * d
        < 2 ^ ((Nat.log2 n : ℤ) - Nat.log2 d - 1) * 2 ^ ((Nat.log2 d : ℤ) + 1) :=
          mul_lt_mul_of_pos_left dhigh (two_zpow_pos _)
      _ = 2 ^ (Nat.log2 n : ℤ) := by rw [← zpow_add₀ two_ne_zero]; congr 1; ring
      _ ≤ n := nlow
  · rw [div_lt_iff₀ hd']
    calc (n : ℚ) < 2 ^ ((Nat.log2 n : ℤ) + 1) := nhigh
      _ = 2 ^ ((Nat.log2 n : ℤ) - Nat.log2 d + 1) * 2 ^ (Nat.log2 d : ℤ) := by
          rw [← zpow_add₀ two_ne_zero]; congr 1; ring
      _ ≤ 2 ^ ((Nat.log2 n : ℤ) - Nat.log2 d + 1) * d := mul_le_mul_of_nonneg_left dlow (two_zpow_pos _).le

/-- The scaled fraction has `p` bits before the point. -/
theorem fShift_binade (p : Nat) {n d : Nat} (hn : 0 < n) (hd : 0 < d) :
    (2 : ℚ) ^ ((p : ℤ) - 1) ≤ n / d * 2 ^ fShift p n d ∧ (n : ℚ) / d * 2 ^ fShift p n d < 2 ^ (p : ℤ) := by
  obtain ⟨low, high⟩ := fraction_binade hn hd
  set sh : ℤ := (p : ℤ) + Nat.log2 d - Nat.log2 n with hsh
  have low' : (2 : ℚ) ^ ((p : ℤ) - 1) < n / d * 2 ^ sh := by
    have := mul_lt_mul_of_pos_right low (two_zpow_pos sh)
    rwa [← zpow_add₀ two_ne_zero, show (Nat.log2 n : ℤ) - Nat.log2 d - 1 + sh = p - 1 by omega] at this
  have high' : (n : ℚ) / d * 2 ^ sh < 2 ^ ((p : ℤ) + 1) := by
    have := mul_lt_mul_of_pos_right high (two_zpow_pos sh)
    rwa [← zpow_add₀ two_ne_zero, show (Nat.log2 n : ℤ) - Nat.log2 d + 1 + sh = p + 1 by omega] at this
  have test : 2 ^ p * (d * 2 ^ (-sh).toNat) ≤ n * 2 ^ sh.toNat ↔ (2 : ℚ) ^ (p : ℤ) ≤ n / d * 2 ^ sh := by
    rw [← scaled_fraction n d sh, le_div_iff₀ (by positivity), zpow_natCast]
    norm_cast
  have half : ∀ e : ℤ, (2 : ℚ) ^ (e - 1) = 2 ^ e / 2 := fun e => by rw [zpow_sub_one₀ two_ne_zero, div_eq_mul_inv]
  have double : (2 : ℚ) ^ ((p : ℤ) + 1) = 2 ^ (p : ℤ) * 2 := zpow_add_one₀ two_ne_zero _
  simp only [fShift, ← hsh, test]
  split
  · next big =>
    rw [half, half]
    constructor <;> linarith
  · next small => exact ⟨low'.le, not_le.1 small⟩

/-! ### The nearest integer -/

/-- The integer part of a number plus one half is nearer to it than any other integer, but for the one below in a tie. -/
theorem nearest_integer {q : ℚ} {m : ℤ} (hm : m = ⌊q + 1 / 2⌋) (y : ℤ) :
    |q - m| < |q - y| ∨ (|q - m| = |q - y| ∧ y ≤ m) := by
  have low : (m : ℚ) ≤ q + 1 / 2 := by rw [hm]; exact Int.floor_le _
  have high : q + 1 / 2 < m + 1 := by rw [hm]; exact Int.lt_floor_add_one _
  rcases lt_trichotomy y m with h | rfl | h
  · have h' : (y : ℚ) + 1 ≤ m := by exact_mod_cast h
    have : |q - m| ≤ |q - y| := by
      rw [abs_of_nonneg (by linarith : 0 ≤ q - y)]
      exact abs_le.2 ⟨by linarith, by linarith⟩
    exact this.lt_or_eq.imp id fun e => ⟨e, h.le⟩
  · exact .inr ⟨rfl, le_rfl⟩
  · have h' : (m : ℚ) + 1 ≤ y := by exact_mod_cast h
    left
    rw [abs_of_nonpos (by linarith : q - y ≤ 0)]
    exact abs_lt.2 ⟨by linarith, by linarith⟩

/-- The same against integers and against everything below a lower bound of the number. -/
theorem nearest_significand {q y : ℚ} {m L : ℤ} (hL : 1 ≤ L) (hq : L ≤ q) (hm : m = ⌊q + 1 / 2⌋)
    (hy : (∃ N : ℤ, y = N) ∨ |y| < L) : |q - m| < |q - y| ∨ (|q - m| = |q - y| ∧ |y| ≤ m) := by
  have hL' : (1 : ℚ) ≤ L := by exact_mod_cast hL
  have floor : |q - m| ≤ q - L := by
    have : |q - m| ≤ |q - L| := by
      rcases nearest_integer hm L with h | h
      · exact h.le
      · exact h.1.le
    rwa [abs_of_nonneg (sub_nonneg.2 hq)] at this
  rcases hy with ⟨N, rfl⟩ | hy
  · rcases nearest_integer hm N with h | ⟨h, le⟩
    · exact .inl h
    · refine .inr ⟨h, ?_⟩
      have : (0 : ℚ) ≤ N := by
        have := le_abs_self (q - N)
        linarith
      rw [abs_of_nonneg this]
      exact_mod_cast le
  · left
    have := le_abs_self (q - y)
    have := le_abs_self y
    linarith

/-- Every datum is a multiple of a power of two, or below the binade in which that power is the last place. -/
theorem valueOf_grid {t : FType} {w : BitVec t.dtype.width} (h : ¬ ReservedBits t w) (E : ℤ) :
    (∃ N : ℤ, valueOf t w = N * 2 ^ E) ∨ |valueOf t w| < (2 ^ fFracBits t : ℤ) * 2 ^ E := by
  obtain ⟨m, k, hv, -, hm⟩ := fValue_of_not_reserved h
  rw [valueOf_num hv]
  by_cases hk : E ≤ k
  · exact .inl ⟨fScale m k E, (fScale_value m hk).symm⟩
  · right
    have hm' : |(m : ℚ)| < 2 ^ fFracBits t * 2 := by rw [← pow_succ]; exact_mod_cast hm
    have hE : (2 : ℚ) ^ k ≤ 2 ^ (E - 1) := zpow_le_zpow_right₀ one_le_two (by omega)
    rw [zpow_sub_one₀ two_ne_zero] at hE
    rw [abs_mul, abs_of_pos (two_zpow_pos k)]
    push_cast
    nlinarith [two_zpow_pos k, two_zpow_pos E, abs_nonneg (m : ℚ)]

/-! ### A rounded significand -/

/-- `m` is the number `q` of a type's precision rounded to an integer. -/
structure Significand (t : FType) (q : ℚ) (m : Nat) : Prop where
  low : (2 ^ fFracBits t : ℤ) ≤ q
  high : q < (2 ^ fFracBits t : ℤ) * 2
  rounded : (m : ℤ) = ⌊q + 1 / 2⌋

/-- What a rounded significand adds to the exponent field: 1 where rounding carried into the next binade. -/
def carryOf (t : FType) (m : Nat) : ℤ := if m = 2 ^ (fFracBits t + 1) then 1 else 0

/-- The fraction of a rounded significand, behind its leading 1. -/
def fractionOf (t : FType) (m : Nat) : Nat := if m = 2 ^ (fFracBits t + 1) then 0 else m - 2 ^ fFracBits t

namespace Significand
variable {t : FType} {q : ℚ} {m : Nat}

theorem bounds (h : Significand t q m) : 2 ^ fFracBits t ≤ m ∧ m ≤ 2 ^ (fFracBits t + 1) := by
  obtain ⟨low, high, rounded⟩ := h
  constructor
  · have : (2 ^ fFracBits t : ℤ) ≤ ⌊q + 1 / 2⌋ := Int.le_floor.2 (by linarith)
    rw [← rounded] at this
    exact_mod_cast this
  · have : ⌊q + 1 / 2⌋ < (2 ^ fFracBits t * 2 : ℤ) + 1 := Int.floor_lt.2 (by push_cast at high ⊢; linarith)
    rw [← rounded] at this
    rw [pow_succ]
    exact_mod_cast Int.lt_add_one_iff.1 this

/-- Rounding carries into the next binade exactly from halfway between the largest significand and that binade on. -/
theorem carry_iff (h : Significand t q m) :
    m = 2 ^ (fFracBits t + 1) ↔ (2 ^ fFracBits t : ℤ) * 2 - 1 / 2 ≤ q := by
  have top := h.bounds.2
  have : m = 2 ^ (fFracBits t + 1) ↔ (2 ^ (fFracBits t + 1) : ℤ) ≤ m := by
    constructor
    · rintro rfl; push_cast; exact le_rfl
    · intro le; exact le_antisymm top (by exact_mod_cast le)
  rw [this, h.rounded, Int.le_floor, pow_succ]
  push_cast
  constructor <;> intro <;> linarith

/-- The exponent field, with its carry, exceeds `M` exactly when the number reaches the bound of `M`. -/
theorem exponent_gt_iff (h : Significand t q m) (E M : ℤ) :
    M < E + carryOf t m ↔
      (2 : ℚ) ^ (M - fBias t) * (1 - 2 ^ (-((fFracBits t : ℤ) + 2))) ≤ q * 2 ^ (E - fBias t - (fFracBits t + 1)) := by
  have scale : ∀ k : ℤ, (2 : ℚ) ^ (k - fBias t) = (2 ^ fFracBits t : ℤ) * 2 * 2 ^ (k - fBias t - (fFracBits t + 1)) := by
    intro k
    push_cast
    rw [← zpow_natCast, ← zpow_add_one₀ two_ne_zero, ← zpow_add₀ two_ne_zero]
    congr 1
    ring
  have bound : (2 : ℚ) ^ (M - fBias t) * (1 - 2 ^ (-((fFracBits t : ℤ) + 2))) =
      ((2 ^ fFracBits t : ℤ) * 2 - 1 / 2) * 2 ^ (M - fBias t - (fFracBits t + 1)) := by
    have last : (2 : ℚ) ^ (M - fBias t) * 2 ^ (-((fFracBits t : ℤ) + 2)) =
        1 / 2 * 2 ^ (M - fBias t - (fFracBits t + 1)) := by
      rw [← zpow_add₀ two_ne_zero, one_div, ← zpow_neg_one, ← zpow_add₀ two_ne_zero]
      congr 1
      ring
    rw [mul_sub, mul_one, last, scale M]
    ring
  have low := h.low
  have high := h.high
  have one : (1 : ℚ) ≤ (2 ^ fFracBits t : ℤ) := by exact_mod_cast Nat.one_le_two_pow
  rw [bound, carryOf]
  rcases lt_trichotomy M E with lt | rfl | gt
  · refine iff_of_true (by split <;> omega) ?_
    have double : (2 : ℚ) ^ (M - fBias t - (fFracBits t + 1)) * 2 ≤ 2 ^ (E - fBias t - (fFracBits t + 1)) := by
      rw [← zpow_add_one₀ two_ne_zero]
      exact zpow_le_zpow_right₀ one_le_two (by omega)
    nlinarith [two_zpow_pos (M - fBias t - (fFracBits t + 1))]
  · rw [mul_le_mul_iff_left₀ (two_zpow_pos _), ← carry_iff h]
    split <;> simp_all
  · refine iff_of_false (by split <;> omega) (not_le.2 ?_)
    have double : (2 : ℚ) ^ (E - fBias t - (fFracBits t + 1)) * 2 ≤ 2 ^ (M - fBias t - (fFracBits t + 1)) := by
      rw [← zpow_add_one₀ two_ne_zero]
      exact zpow_le_zpow_right₀ one_le_two (by omega)
    nlinarith [two_zpow_pos (E - fBias t - (fFracBits t + 1))]

/-- The fraction and exponent field that are packed stand for the rounded significand. -/
theorem packed (h : Significand t q m) (E : ℤ) :
    fractionOf t m < 2 ^ fFracBits t ∧
    (2 ^ fFracBits t + (fractionOf t m : ℚ)) * 2 ^ (E + carryOf t m - fBias t - (fFracBits t + 1)) =
      m * 2 ^ (E - fBias t - (fFracBits t + 1)) := by
  obtain ⟨low, high⟩ := h.bounds
  rw [fractionOf, carryOf]
  by_cases c : m = 2 ^ (fFracBits t + 1)
  · rw [if_pos c, if_pos c]
    refine ⟨by positivity, ?_⟩
    rw [c, show E + 1 - fBias t - (fFracBits t + 1) = E - fBias t - (fFracBits t + 1) + 1 by ring,
      zpow_add_one₀ two_ne_zero]
    push_cast
    ring
  · rw [if_neg c, if_neg c, Nat.cast_sub low, add_zero]
    refine ⟨by rw [pow_succ] at high c; omega, ?_⟩
    push_cast
    ring

/-- The rounded significand makes the nearest datum, in a tie the one of larger magnitude (R45). -/
theorem nearest (h : Significand t q m) {E : ℤ} {sign r : ℚ} (hs : |sign| = 1) (hr : r = sign * (q * 2 ^ E))
    {v : BitVec t.dtype.width} (hv : ¬ ReservedBits t v) (value : valueOf t v = sign * (m * 2 ^ E)) :
    Nearest t r v := by
  have unit : (0 : ℚ) < 2 ^ E := two_zpow_pos E
  have one : (1 : ℤ) ≤ 2 ^ fFracBits t := by exact_mod_cast Nat.one_le_two_pow
  have square : sign * sign = 1 := by rw [← abs_mul_abs_self, hs, one_mul]
  have distance : ∀ y : ℚ, |r - sign * (y * 2 ^ E)| = |q - y| * 2 ^ E := fun y => by
    rw [hr, ← mul_sub, ← sub_mul, abs_mul, abs_mul, hs, one_mul, abs_of_pos unit]
  refine ⟨hv, fun r0 => ?_, fun w hw => ?_⟩
  · have : 0 < q := lt_of_lt_of_le (by positivity) h.low
    have : sign ≠ 0 := by rintro rfl; simp at hs
    simp_all [unit.ne']
  · obtain ⟨y, hy⟩ : ∃ y, valueOf t w = sign * (y * 2 ^ E) :=
      ⟨sign * valueOf t w / 2 ^ E, by rw [div_mul_cancel₀ _ unit.ne', ← mul_assoc, square, one_mul]⟩
    have magnitude : ∀ z : ℚ, |sign * (z * 2 ^ E)| = |z| * 2 ^ E := fun z => by
      rw [abs_mul, abs_mul, hs, one_mul, abs_of_pos unit]
    have grid : (∃ N : ℤ, y = N) ∨ |y| < (2 ^ fFracBits t : ℤ) := by
      rcases valueOf_grid hw E with ⟨N, hN⟩ | small
      · rcases abs_eq (zero_le_one (α := ℚ)) |>.1 hs with rfl | rfl
        · exact .inl ⟨N, by rw [hy, one_mul] at hN; exact mul_right_cancel₀ unit.ne' hN⟩
        · refine .inl ⟨-N, mul_right_cancel₀ unit.ne' ?_⟩
          push_cast
          linarith
      · rw [hy, magnitude] at small
        exact .inr (lt_of_mul_lt_mul_right (by exact_mod_cast small) unit.le)
    rw [value, hy, distance, distance, magnitude, magnitude, Nat.abs_cast]
    have := nearest_significand one h.low h.rounded grid
    rcases this with lt | ⟨eq, le⟩
    · exact .inl (mul_lt_mul_of_pos_right (by exact_mod_cast lt) unit)
    · refine .inr ⟨by rw [← eq]; norm_cast, mul_le_mul_of_nonneg_right (by exact_mod_cast le) unit.le⟩

end Significand

/-! ### Rounding -/

/-- The significand of `n / d`, rounded to a type's precision. -/
def roundedSignificand (t : FType) (n d : Nat) : Nat :=
  roundDiv (n * 2 ^ (fShift (fFracBits t + 1) n d).toNat) (d * 2 ^ (-fShift (fFracBits t + 1) n d).toNat)

/-- The exponent field of `n / d * 2 ^ k`, before a carry. -/
def exponentBefore (t : FType) (n d : Nat) (k : ℤ) : ℤ :=
  k - fShift (fFracBits t + 1) n d + fBias t + (fFracBits t + 1 : ℕ)

theorem fRound_pos {t : FType} {neg : Bool} {n d : Nat} {k : ℤ} (hn : 0 < n) :
    fRound t neg n d k =
      if (fMaxExp t : ℤ) < exponentBefore t n d k + carryOf t (roundedSignificand t n d) then .overflow
      else if exponentBefore t n d k + carryOf t (roundedSignificand t n d) < 1 then .underflow
      else
        .value (fPack t neg (exponentBefore t n d k + carryOf t (roundedSignificand t n d)).toNat
          (fractionOf t (roundedSignificand t n d))) := by
  simp only [fRound, if_neg hn.ne', decide_eq_true_eq]
  rfl

theorem roundedSignificand_spec (t : FType) {n d : Nat} (hn : 0 < n) (hd : 0 < d) :
    Significand t ((n : ℚ) / d * 2 ^ fShift (fFracBits t + 1) n d) (roundedSignificand t n d) := by
  obtain ⟨low, high⟩ := fShift_binade (fFracBits t + 1) hn hd
  refine ⟨?_, ?_, ?_⟩
  · push_cast at low ⊢
    rwa [add_sub_cancel_right, zpow_natCast] at low
  · rw [zpow_natCast, pow_succ] at high
    exact_mod_cast high
  · rw [← scaled_fraction, roundedSignificand, roundDiv_eq_floor _ (by positivity)]

theorem nearest_zero (t : FType) : Nearest t 0 0 := by
  refine ⟨zero_not_reserved t, fun _ => rfl, fun w _ => ?_⟩
  simp only [valueOf_zero, zero_sub, abs_neg, abs_zero]
  exact (abs_nonneg _).lt_or_eq.imp id fun e => ⟨e, e.symm.le⟩

theorem overflowBound_pos (t : FType) : 0 < overflowBound t := by
  have : (2 : ℚ) ^ (-((fFracBits t : ℤ) + 2)) < 1 := zpow_lt_one_of_neg₀ one_lt_two (by omega)
  exact mul_pos (two_zpow_pos _) (by linarith)

/-- The model's rounding of `(-1)^neg * (n / d) * 2 ^ k` is the rounding of that real number (R45). -/
theorem fRound_rounded (t : FType) {neg : Bool} {n d : Nat} {k : ℤ} {r : ℚ} (hd : 0 < d)
    (hr : r = (if neg then -1 else 1) * ((n : ℚ) / d * 2 ^ k)) : RoundedTo t r (fRound t neg n d k) := by
  rcases Nat.eq_zero_or_pos n with rfl | hn
  · have zero : r = 0 := by simpa using hr
    rw [zero]
    exact ⟨.inl rfl, by rw [abs_zero]; exact overflowBound_pos t, nearest_zero t⟩
  have sig := roundedSignificand_spec t hn hd
  have hs : |(if neg then -1 else 1 : ℚ)| = 1 := by cases neg <;> simp
  have scaled : (n : ℚ) / d * 2 ^ k =
      n / d * 2 ^ fShift (fFracBits t + 1) n d * 2 ^ (exponentBefore t n d k - fBias t - (fFracBits t + 1)) := by
    rw [mul_assoc, ← zpow_add₀ two_ne_zero]
    congr 2
    simp only [exponentBefore]
    push_cast
    ring
  have magnitude : |r| =
      n / d * 2 ^ fShift (fFracBits t + 1) n d * 2 ^ (exponentBefore t n d k - fBias t - (fFracBits t + 1)) := by
    rw [hr, abs_mul, hs, one_mul, ← scaled, abs_of_nonneg (by positivity)]
  have reaches := sig.exponent_gt_iff (exponentBefore t n d k) (fMaxExp t)
  have leaves := sig.exponent_gt_iff (exponentBefore t n d k) 0
  rw [← magnitude] at reaches leaves
  rw [zero_sub] at leaves
  rw [fRound_pos hn]
  split
  · next h => exact reaches.1 h
  · next hover =>
    split
    · next h =>
      have nonzero : r ≠ 0 := by
        rw [← abs_pos, magnitude]
        positivity
      exact ⟨nonzero, not_le.1 fun le => by have := leaves.2 le; omega⟩
    · next hunder =>
      obtain ⟨small, value⟩ := sig.packed (exponentBefore t n d k)
      obtain ⟨e, field⟩ := Int.eq_ofNat_of_zero_le (le_trans zero_le_one (not_lt.1 hunder))
      rw [field] at hover hunder value reaches leaves ⊢
      obtain ⟨unreserved, packed⟩ := valueOf_fPack (s := neg) (by omega : 1 ≤ e) (by omega) small
      refine ⟨.inr (leaves.1 (by omega)), not_le.1 fun le => hover (reaches.2 le), ?_⟩
      refine sig.nearest hs (by rw [hr, scaled]) unreserved ?_
      exact packed.trans (congrArg _ value)

theorem cast_eq_sign_mul_natAbs (c : ℤ) : (c : ℚ) = (if decide (c < 0) = true then -1 else 1) * c.natAbs := by
  rw [Nat.cast_natAbs, Int.cast_abs]
  rcases lt_or_ge c 0 with h | h
  · have : (c : ℚ) < 0 := by exact_mod_cast h
    simp [h, abs_of_neg this]
  · have : (0 : ℚ) ≤ c := by exact_mod_cast h
    simp [h.not_gt, abs_of_nonneg this]

/-- An integer times a power of two is rounded as that real number (R45). -/
theorem fRoundInt_rounded (t : FType) (m k : ℤ) : RoundedTo t (m * 2 ^ k) (fRoundInt t m k) := by
  refine fRound_rounded t Nat.one_pos ?_
  rw [Nat.cast_one, div_one, ← mul_assoc, ← cast_eq_sign_mul_natAbs]

/-- A quotient is rounded once, with the sign of its operands (R45). -/
theorem fRound_quotient (t : FType) {a b : ℤ} (j k : ℤ) (hb : b ≠ 0) :
    RoundedTo t (a * 2 ^ j / (b * 2 ^ k)) (fRound t (decide (a < 0) != decide (b < 0)) a.natAbs b.natAbs (j - k)) := by
  refine fRound_rounded t (Int.natAbs_pos.2 hb) ?_
  rw [mul_div_mul_comm, ← zpow_sub₀ two_ne_zero, ← mul_assoc]
  congr 1
  conv_lhs => rw [cast_eq_sign_mul_natAbs a, cast_eq_sign_mul_natAbs b]
  cases decide (a < 0) <;> cases decide (b < 0) <;> simp [neg_div, div_neg]

/-- Floating arithmetic on numbers answers their exact result, rounded (R45). -/
theorem fArith_rounded {op : FOp} {t : FType} {x y : BitVec t.dtype.width} (hx : ¬ ReservedBits t x)
    (hy : ¬ ReservedBits t y) (hz : op = .div → ¬ ZeroBits t y) :
    RoundedTo t (exactOp op (valueOf t x) (valueOf t y)) (fArith op t x y) := by
  obtain ⟨a, j, ex, -⟩ := fValue_of_not_reserved hx
  obtain ⟨b, k, ey, hb, -⟩ := fValue_of_not_reserved hy
  rw [valueOf_num ex, valueOf_num ey]
  unfold fArith
  rw [ex, ey]
  cases op with
  | add =>
    convert fRoundInt_rounded t (fScale a j (min j k) + fScale b k (min j k)) (min j k) using 1
    push_cast
    rw [add_mul, fScale_value a (min_le_left j k), fScale_value b (min_le_right j k)]
    rfl
  | sub =>
    convert fRoundInt_rounded t (fScale a j (min j k) - fScale b k (min j k)) (min j k) using 1
    push_cast
    rw [sub_mul, fScale_value a (min_le_left j k), fScale_value b (min_le_right j k)]
    rfl
  | mul =>
    convert fRoundInt_rounded t (a * b) (j + k) using 1
    push_cast
    rw [zpow_add₀ two_ne_zero, mul_mul_mul_comm]
    rfl
  | div =>
    have nonzero : b ≠ 0 := fun h => hz rfl (hb.1 h)
    simp only [if_neg nonzero]
    exact fRound_quotient t j k nonzero

theorem toCvt_rounded {t : FType} {r : ℚ} {x : FPResult t.dtype.width} (h : RoundedTo t r x) :
    CvtRoundedTo t r (toCvt x) := by
  cases x with
  | value | overflow | underflow => exact h
  | reservedOperand | divideByZero => exact h.elim

theorem fToFloat_rounded {t : FType} (u : FType) {x : BitVec t.dtype.width} (h : ¬ ReservedBits t x) :
    CvtRoundedTo u (valueOf t x) (fToFloat t u x) := by
  obtain ⟨m, k, ex, -⟩ := fValue_of_not_reserved h
  rw [valueOf_num ex]
  simp only [fToFloat, ex]
  exact toCvt_rounded (fRoundInt_rounded u m k)

end Sys2Proof.Machine

namespace Sys2Proof
open Machine

/-- Settles O24: arithmetic and the Rounded conversions bring their exact result to one rounding, whose significand is the
nearest integer of its binade. -/
theorem floatResultIsNearest : Obligations.FloatResultIsNearest := by
  unfold Obligations.FloatResultIsNearest
  refine ⟨fun op ty x y hx hy hz => fArith_rounded hx hy hz, fun x => ?_, fun x h => fToFloat_rounded .f h,
    fun x h => fToFloat_rounded .f h⟩
  have := toCvt_rounded (fRoundInt_rounded .f x.toInt 0)
  rwa [zpow_zero, mul_one] at this

end Sys2Proof
end

section
/-! Memory is read little-endian, byte by byte (R50, R51), and effective addresses are sums of 32 bits that wrap (R53). -/

namespace Sys2Proof.Machine

/-! ### Reads, byte by byte -/

theorem byteOf_append_zero {w : Nat} (x : BitVec w) (b : Byte) : byteOf (x ++ b) 0 = b := by
  apply BitVec.eq_of_getLsbD_eq
  intro i hi
  simp [byteOf, BitVec.getLsbD_append, hi]

/-- Without its lowest byte, a value's bytes are one place lower. -/
theorem byteOf_append_succ {w : Nat} (x : BitVec w) (b : Byte) (k : Nat) : byteOf (x ++ b) (k + 1) = byteOf x k := by
  apply BitVec.eq_of_getLsbD_eq
  intro i hi
  have above : ¬ 8 * (k + 1) + i < 8 := by omega
  have lower : 8 * (k + 1) + i - 8 = 8 * k + i := by omega
  simp only [byteOf, BitVec.getLsbD_extractLsb', BitVec.getLsbD_append, above, lower, if_false]

theorem byteOf_byte (b : Byte) : byteOf b 0 = b := by
  simp [byteOf]

/-- Byte `k` of a longword read is the byte at the address plus `k` (R51). -/
theorem State.byteOf_readL (s : State) (a : Address) {k : Nat} (hk : k < 4) :
    byteOf (s.readL a) k = s.byte (a + BitVec.ofNat 32 k) := by
  unfold State.readL longOfBytes
  match k, hk with
  | 0, _ => rw [byteOf_append_zero, BitVec.add_zero]
  | 1, _ => rw [byteOf_append_succ, byteOf_append_zero]; rfl
  | 2, _ => rw [byteOf_append_succ, byteOf_append_succ, byteOf_append_zero]; rfl
  | 3, _ => rw [byteOf_append_succ, byteOf_append_succ, byteOf_append_succ, byteOf_byte]; rfl

/-- Byte `k` of a quadword read is the byte at the address plus `k` (R51). -/
theorem State.byteOf_readQ (s : State) (a : Address) {k : Nat} (hk : k < 8) :
    byteOf (s.readQ a).q k = s.byte (a + BitVec.ofNat 32 k) := by
  by_cases low : k < 4
  · rw [byteOf_q_low _ low]
    exact s.byteOf_readL a low
  · obtain ⟨j, rfl⟩ := Nat.exists_eq_add_of_le (not_lt.1 low)
    rw [byteOf_q_high, ← add_four]
    exact s.byteOf_readL (a + 4) (by omega)

/-! ### Effective addresses -/

theorem stridedAddr_toNat (base : Address) (stride : Longword) (i : ElemIx) :
    (stridedAddr base stride i).toNat = (base.toNat + i.val * stride.toNat) % 2 ^ 32 := by
  simp [stridedAddr, BitVec.toNat_add, BitVec.toNat_mul]

@[simp] theorem stridedAddr_zero (base : Address) (stride : Longword) : stridedAddr base stride 0 = base := by
  simp [stridedAddr]

/-- The next element's address is one stride further on. -/
theorem stridedAddr_succ (base : Address) (stride : Longword) {i j : ElemIx} (h : j.val = i.val + 1) :
    stridedAddr base stride j = stridedAddr base stride i + stride := by
  rw [stridedAddr, stridedAddr, h, BitVec.ofNat_add, BitVec.add_mul, BitVec.one_mul, BitVec.add_assoc]

theorem indexedAddr_toNat (base : Address) (e : Element) :
    (indexedAddr base e).toNat = (base.toNat + e.lo.toNat) % 2 ^ 32 :=
  BitVec.toNat_add base e.lo

end Sys2Proof.Machine

namespace Sys2Proof
open Machine

/-- Settles O47: a quadword is two longwords four bytes apart, read and stored; a longword is four bytes. -/
theorem littleEndianMemory : Obligations.LittleEndianMemory := by
  unfold Obligations.LittleEndianMemory
  intro s a
  refine ⟨fun k hk => s.byteOf_readL a hk, fun k hk => s.byteOf_readQ a hk, rfl, fun wf w e b => ⟨?_, ?_⟩⟩
  · by_cases covered : Covers a w.bytes b
    · exact .inr covered
    · exact .inl (s.byte_writeElem_off wf w a b e covered)
  · exact s.byte_writeElem_at wf w a e

/-- Settles O48: an address is a sum of 32-bit vectors, so it wraps, and multiplication distributes over the element's
successor. -/
theorem effectiveAddresses : Obligations.EffectiveAddresses := by
  unfold Obligations.EffectiveAddresses
  exact fun base stride => ⟨stridedAddr_toNat base stride, stridedAddr_zero base stride,
    fun _ _ => stridedAddr_succ base stride, indexedAddr_toNat base⟩

end Sys2Proof
end

section
/-! Operand specifiers: what the bytes of each mode parse to, and that the encoder's bytes of an operand give the operand back
(R83). -/

namespace Sys2Proof
open Machine

/-! ### Specifier bytes -/

@[simp] theorem takeQuad_bytesOfQuad (x : Quadword) (rest : List Byte) :
    takeQuad (bytesOfQuad x ++ rest) = .ok (x, rest) := by
  simp only [takeQuad, bytesOfQuad, List.cons_append, List.nil_append]
  congr 2
  unfold longOfBytes byteOf
  apply BitVec.eq_of_getLsbD_eq
  intro i hi
  simp only [BitVec.getLsbD_append, BitVec.getLsbD_extractLsb']
  grind

/-- Immediate mode is mode 8 at R15 (R83). -/
theorem parseSpec_immediate (k : OperandKind) (bs : List Byte) :
    parseSpec k (modeByte 8 15 :: bs) = parseImmediate k bs := rfl

/-- Register mode is mode 5 (R83). -/
theorem parseSpec_register {k : OperandKind} (hk : k.takesRegister = true) (n : GReg) (rest : List Byte) :
    parseSpec k (modeByte 5 n :: rest) = .ok (.register n, rest) := by
  obtain ⟨mode, reg⟩ := modeByte_fields (m := 5) (by decide) n
  simp only [parseSpec, mode, reg, hk]
  rfl

/-- A short literal is a byte below 64 (R83). -/
theorem parseSpec_literal {k : OperandKind} (hk : k.takesConstant = true) (v : BitVec 6) (rest : List Byte) :
    parseSpec k (v.setWidth 8 :: rest) = .ok (.literal v, rest) := by
  have fields : ∀ v : BitVec 6, ((v.setWidth 8).extractLsb' 4 4).toNat < 4 ∧ (v.setWidth 8).extractLsb' 0 6 = v := by
    decide
  obtain ⟨mode, value⟩ := fields v
  simp only [parseSpec, value, hk, if_pos mode, if_true]

/-- Index mode is mode 4, over the specifier that follows (R83). -/
theorem parseAddress_indexed {bs : List Byte} {m : MemMode} {rest : List Byte} (x : GReg)
    (h : parseAddress bs = .ok (m, rest)) : parseAddress (modeByte 4 x :: bs) = .ok (.indexed x m, rest) := by
  obtain ⟨mode, reg⟩ := modeByte_fields (m := 4) (by decide) x
  simp only [parseAddress, mode, reg, h, if_true]

/-- Every other mode byte names one address (R83). -/
theorem parseAddress_modeByte {mode : Nat} (hm : mode < 16) (h4 : mode ≠ 4) (n : GReg) (bs : List Byte) :
    parseAddress (modeByte mode n :: bs) = parseMem mode n bs := by
  obtain ⟨hmode, reg⟩ := modeByte_fields hm n
  simp only [parseAddress, hmode, reg, if_neg h4]

/-- A parsed address comes of none of the modes 0 to 3 and 5, nor of immediate mode. -/
theorem parseMem_mode {mode : Nat} {n : GReg} {bs : List Byte} {p : MemMode × List Byte}
    (h : parseMem mode n bs = .ok p) : 6 ≤ mode ∧ ¬ (mode = 8 ∧ n = 15) := by
  unfold parseMem at h
  constructor
  · by_contra small
    rw [if_neg (by omega), if_neg (by omega), if_neg (by omega), if_neg (by omega), if_neg (by omega)] at h
    cases h
  · rintro ⟨rfl, rfl⟩
    cases h

theorem parseImmediate_ne_mem {k : OperandKind} {bs : List Byte} {m : MemMode} {rest : List Byte} :
    parseImmediate k bs ≠ .ok (.mem m, rest) := by
  intro h
  cases k with
  | ab | wl => cases h
  | rw | rl | rq =>
    simp only [parseImmediate] at h
    split at h <;> cases h

/-- A specifier names memory exactly when it computes an address (R83). -/
theorem parseSpec_mem_iff {k : OperandKind} {bs : List Byte} {m : MemMode} {rest : List Byte} :
    parseSpec k bs = .ok (.mem m, rest) ↔ parseAddress bs = .ok (m, rest) := by
  cases bs with
  | nil => exact ⟨nofun, nofun⟩
  | cons b bs =>
    constructor
    · intro h
      simp only [parseSpec] at h
      split at h
      · split at h <;> cases h
      split at h
      · split at h <;> cases h
      split at h
      · exact absurd h parseImmediate_ne_mem
      split at h
      · next hp => cases h; exact hp
      · cases h
    · intro h
      have modes : 4 ≤ (b.extractLsb' 4 4).toNat ∧ (b.extractLsb' 4 4).toNat ≠ 5 ∧
          ¬ ((b.extractLsb' 4 4).toNat = 8 ∧ (b.extractLsb' 0 4).toFin = (15 : GReg)) := by
        simp only [parseAddress] at h
        split at h
        · omega
        · obtain ⟨least, immediate⟩ := parseMem_mode h
          exact ⟨by omega, by omega, immediate⟩
      obtain ⟨least, register, immediate⟩ := modes
      simp only [parseSpec]
      rw [if_neg (by omega), if_neg register, if_neg immediate, h]

/-! ### The encoder's operands -/

/-- An operand's bytes in the encoder's modes (log 46). -/
def OpVal.bytes : OpVal → List Byte
  | .word v => immWord v
  | .long v => immLong v
  | .quad v => immQuad v
  | .addr a => absAddr a
  | .dest d => destBytes d

/-- The specifier those bytes are. -/
def OpVal.spec : OpVal → Spec
  | .word v => .immW v
  | .long v => .immL v
  | .quad v => .immQ v
  | .addr a => .mem (.absolute a)
  | .dest (.reg n) => .register n
  | .dest (.mem a) => .mem (.absolute a)

theorem parseSpec_absAddr (k : OperandKind) (a : Address) (rest : List Byte) :
    parseSpec k (absAddr a ++ rest) = .ok (.mem (.absolute a), rest) := by
  rw [parseSpec_mem_iff]
  show parseAddress (modeByte 9 15 :: (bytesOfLong a ++ rest)) = _
  rw [parseAddress_modeByte (by decide) (by decide)]
  simp [parseMem]

/-- The encoder's bytes of an operand parse to its specifier. -/
theorem parseSpec_bytes {k : OperandKind} {v : OpVal} (h : Fits k v) (rest : List Byte) :
    parseSpec k (v.bytes ++ rest) = .ok (v.spec, rest) := by
  cases v with
  | word v =>
    cases k <;> cases h
    exact (parseSpec_immediate .rw _).trans (by simp [parseImmediate, OpVal.spec])
  | long v =>
    cases k <;> cases h
    exact (parseSpec_immediate .rl _).trans (by simp [parseImmediate, OpVal.spec])
  | quad v =>
    cases k <;> cases h
    exact (parseSpec_immediate .rq _).trans (by simp [parseImmediate, OpVal.spec])
  | addr a => exact parseSpec_absAddr k a rest
  | dest d =>
    cases d with
    | reg n =>
      cases k <;> cases h
      exact parseSpec_register rfl n rest
    | mem a => exact parseSpec_absAddr k a rest

/-- An operand's specifier carries its value whole. -/
theorem staticVal_spec {k : OperandKind} {v : OpVal} (h : Fits k v) : staticVal k v.spec = some v := by
  cases v with
  | dest d =>
    cases k <;> cases h
    cases d <;> rfl
  | _ =>
    cases k <;> cases h
    rfl

/-- The encoder's bytes of operands parse to specifiers that carry the operands' values. -/
theorem parseSpecs_bytes (total : Nat) {ks : List OperandKind} {vs : List OpVal} (h : List.Forall₂ Fits ks vs)
    (rest : List Byte) :
    ∃ sps, parseSpecs total ks (vs.flatMap OpVal.bytes ++ rest) = .ok (sps, rest) ∧ staticVals ks sps = some vs := by
  induction h with
  | nil => exact ⟨[], rfl, rfl⟩
  | @cons k v ks vs hv _ ih =>
    obtain ⟨sps, parsed, values⟩ := ih
    refine ⟨⟨v.spec, total - (vs.flatMap OpVal.bytes ++ rest).length⟩ :: sps, ?_, ?_⟩
    · simp only [parseSpecs, List.flatMap_cons, List.append_assoc, parseSpec_bytes hv, parsed]
    · simp only [staticVals, staticVal_spec hv, values]

/-- Decoding an opcode byte of the map and the encoder's bytes of operands of its format gives the format's instruction of
those operands. -/
theorem decode_bytes {code : Byte} {b : Builder} {vs : List OpVal} {i : Instr} (row : findRow code.toNat = some b)
    (fits : List.Forall₂ Fits b.kinds vs) (made : b.apply vs = some i) (rest : List Byte) :
    decode (0xFD#8 :: code :: (vs.flatMap OpVal.bytes ++ rest)) =
      .ok (i, (0xFD#8 :: code :: vs.flatMap OpVal.bytes).length) := by
  obtain ⟨sps, parsed, values⟩ := parseSpecs_bytes
    (0xFD#8 :: code :: (vs.flatMap OpVal.bytes ++ rest)).length fits rest
  have hp : parse (0xFD#8 :: code :: (vs.flatMap OpVal.bytes ++ rest)) =
      .ok (⟨b, sps⟩, (0xFD#8 :: code :: vs.flatMap OpVal.bytes).length) := by
    simp only [parse, if_true, row, parsed]
    congr 2
    simp only [List.length_cons, List.length_append]
    omega
  simp only [decode, hp, values, made]

/-! ### The encoder's formats (R82) -/

theorem decode_encC {code : Byte} {f : Cntrl → Instr} (row : findRow code.toNat = some (.c f)) (c : Cntrl)
    (rest : List Byte) : decode (encC code c ++ rest) = .ok (f c, (encC code c).length) := by
  simpa [OpVal.bytes, encC] using decode_bytes (vs := [.word c]) row (.cons trivial .nil) rfl rest

theorem decode_encCL {code : Byte} {f : Cntrl → Longword → Instr} (row : findRow code.toNat = some (.cl f)) (c : Cntrl)
    (x : Longword) (rest : List Byte) : decode (encCL code c x ++ rest) = .ok (f c x, (encCL code c x).length) := by
  simpa [OpVal.bytes, encCL] using
    decode_bytes (vs := [.word c, .long x]) row (.cons trivial (.cons trivial .nil)) rfl rest

theorem decode_encCQ {code : Byte} {f : Cntrl → Quadword → Instr} (row : findRow code.toNat = some (.cq f)) (c : Cntrl)
    (x : Quadword) (rest : List Byte) : decode (encCQ code c x ++ rest) = .ok (f c x, (encCQ code c x).length) := by
  simpa [OpVal.bytes, encCQ] using
    decode_bytes (vs := [.word c, .quad x]) row (.cons trivial (.cons trivial .nil)) rfl rest

theorem decode_encCA {code : Byte} {f : Cntrl → Address → Instr} (row : findRow code.toNat = some (.ca f)) (c : Cntrl)
    (a : Address) (rest : List Byte) : decode (encCA code c a ++ rest) = .ok (f c a, (encCA code c a).length) := by
  simpa [OpVal.bytes, encCA] using
    decode_bytes (vs := [.word c, .addr a]) row (.cons trivial (.cons trivial .nil)) rfl rest

theorem decode_encCAL {code : Byte} {f : Cntrl → Address → Longword → Instr} (row : findRow code.toNat = some (.cal f))
    (c : Cntrl) (a : Address) (x : Longword) (rest : List Byte) :
    decode (encCAL code c a x ++ rest) = .ok (f c a x, (encCAL code c a x).length) := by
  simpa [OpVal.bytes, encCAL] using
    decode_bytes (vs := [.word c, .addr a, .long x]) row (.cons trivial (.cons trivial (.cons trivial .nil))) rfl rest

theorem decode_encRW {code : Byte} {f : Word → Dest → Instr} (row : findRow code.toNat = some (.rw f)) (n : Word)
    (d : Dest) (rest : List Byte) : decode (encRW code n d ++ rest) = .ok (f n d, (encRW code n d).length) := by
  simpa [OpVal.bytes, encRW] using
    decode_bytes (vs := [.word n, .dest d]) row (.cons trivial (.cons trivial .nil)) rfl rest

theorem decode_encRL {code : Byte} {f : Word → Longword → Instr} (row : findRow code.toNat = some (.rl f)) (n : Word)
    (x : Longword) (rest : List Byte) : decode (encRL code n x ++ rest) = .ok (f n x, (encRL code n x).length) := by
  simpa [OpVal.bytes, encRL] using
    decode_bytes (vs := [.word n, .long x]) row (.cons trivial (.cons trivial .nil)) rfl rest

theorem decode_encR {code : Byte} {f : Word → Instr} (row : findRow code.toNat = some (.r f)) (n : Word)
    (rest : List Byte) : decode (encR code n ++ rest) = .ok (f n, (encR code n).length) := by
  simpa [OpVal.bytes, encR] using decode_bytes (vs := [.word n]) row (.cons trivial .nil) rfl rest

/-- Settles O1: by the format of each instruction; the map has the opcode byte's format, and the operands' bytes parse
back. -/
theorem decodeInvertsEncode : Obligations.DecodeInvertsEncode := by
  unfold Obligations.DecodeInvertsEncode
  intro i rest
  cases i with
  | vvaddl c | vvsubl c | vvmull c | vvaddf c | vvaddd c | vvaddg c | vvsubf c | vvsubd c | vvsubg c | vvmulf c
  | vvmuld c | vvmulg c | vvdivf c | vvdivd c | vvdivg c | vvcmpl c | vvcmpf c | vvcmpd c | vvcmpg c | vvbisl c
  | vvxorl c | vvbicl c | vvsrll c | vvslll c | vvcvt c | vvmerge c
  | vvgtrf q a b | vveqlf q a b | vvlssf q a b | vvleqf q a b | vvneqf q a b | vvgeqf q a b
  | vvgtrd q a b | vveqld q a b | vvlssd q a b | vvleqd q a b | vvneqd q a b | vvgeqd q a b
  | vvgtrg q a b | vveqlg q a b | vvlssg q a b | vvleqg q a b | vvneqg q a b | vvgeqg q a b
  | vvgtrl q a b | vveqll q a b | vvlssl q a b | vvleql q a b | vvneql q a b | vvgeql q a b
  | vvcvtlf u q b c | vvcvtld u q b c | vvcvtlg u q b c | vvcvtfl u q b c | vvcvtrfl u q b c | vvcvtfd u q b c
  | vvcvtfg u q b c | vvcvtdl u q b c | vvcvtdf u q b c | vvcvtrdl u q b c | vvcvtgl u q b c | vvcvtgf u q b c
  | vvcvtrgl u q b c => exact decode_encC rfl _ rest
  | vsaddl c x | vssubl c x | vsmull c x | vsaddf c x | vssubf c x | vsmulf c x | vsdivf c x | vscmpl c x | vscmpf c x
  | vsbisl c x | vsxorl c x | vsbicl c x | vssrll c x | vsslll c x | iota c x
  | vsgtrf q x b | vseqlf q x b | vslssf q x b | vsleqf q x b | vsneqf q x b | vsgeqf q x b
  | vsgtrl q x b | vseqll q x b | vslssl q x b | vsleql q x b | vsneql q x b | vsgeql q x b =>
    exact decode_encCL rfl _ x rest
  | vsaddd c x | vsaddg c x | vssubd c x | vssubg c x | vsmuld c x | vsmulg c x | vsdivd c x | vsdivg c x | vscmpd c x
  | vscmpg c x | vsmerge c x | vsmergef t x b c | vsmerged t x b c | vsmergeg t x b c
  | vsgtrd q x b | vseqld q x b | vslssd q x b | vsleqd q x b | vsneqd q x b | vsgeqd q x b
  | vsgtrg q x b | vseqlg q x b | vslssg q x b | vsleqg q x b | vsneqg q x b | vsgeqg q x b =>
    exact decode_encCQ rfl _ x rest
  | vgathl c a | vgathq c a | vscatl c a | vscatq c a => exact decode_encCA rfl c a rest
  | vldl c a x | vldq c a x | vstl c a x | vstq c a x => exact decode_encCAL rfl c a x rest
  | mfvp n d => exact decode_encRW rfl n d rest
  | mfvcr d | mfvlr d | mfvmrlo d | mfvmrhi d | synch d | msynch d => exact decode_encRW rfl _ d rest
  | mtvp n x => exact decode_encRL rfl n x rest
  | mtvcr x | mtvlr x | mtvmrlo x | mtvmrhi x => exact decode_encRL rfl _ x rest
  | vsync n => exact decode_encR rfl n rest
  | vsynch => exact decode_encR rfl 0 rest

/-! ### The opcode map -/

/-- The map has no row for a byte that is the code of none of its rows (R102). -/
theorem findRow_eq_none {code : Nat} (h : code ∉ opcodeTable.map OpRow.code) : findRow code = none := by
  rw [findRow, Option.map_eq_none_iff, List.find?_eq_none]
  intro row hrow same
  exact h (List.mem_map.2 ⟨row, hrow, beq_iff_eq.1 same⟩)

theorem parse_unknownOpcode {b0 b1 : Byte} (h : b0 ≠ 0xFD ∨ findRow b1.toNat = none) (rest : List Byte) :
    parse (b0 :: b1 :: rest) = .error .unknownOpcode := by
  simp only [parse]
  split
  · next hb =>
    rcases h with h | h
    · exact absurd hb h
    · rw [h]
  · rfl

/-- Settles O3: the opcode map's second bytes are the 63 listed ones. -/
theorem unlistedOpcodesRefused : Obligations.UnlistedOpcodesRefused := by
  unfold Obligations.UnlistedOpcodesRefused
  intro s b0 b1 rest bytes unlisted
  have unknown : parse (b0 :: b1 :: rest) = .error .unknownOpcode :=
    parse_unknownOpcode (unlisted.imp_right findRow_eq_none) rest
  rw [step, bytes, unknown]

/-- Settles O2: each word but the last is what the encoder makes of its instruction. -/
theorem specWordsDecode : Obligations.SpecWordsDecode := by
  unfold Obligations.SpecWordsDecode
  exact ⟨decodeInvertsEncode (.vvaddl 0x0123) [], decodeInvertsEncode (.vldl 0x2001 0x00001000 4) [],
    decodeInvertsEncode (.vvdivd 0xEFED) [], decodeInvertsEncode (.vscmpg 0xC025 0x4010) [],
    decodeInvertsEncode (.iota 0x4005 4) [], decodeInvertsEncode (.vscatq 0x0012 0x00002000) [],
    decodeInvertsEncode (.mfvp 1 (.reg 0)) [], decodeInvertsEncode (.mtvp 2 0xFFFF0000) [],
    decodeInvertsEncode (.vsync 0) [], rfl⟩

end Sys2Proof
end

section
/-! The operand modes of a read longword: which bytes each mode is, and the address, value and register update it gives (R83). -/

namespace Sys2Proof
open Machine

/-! ### Bytes of the modes that name memory -/

theorem parseAddress_deferred (n : GReg) (rest : List Byte) :
    parseAddress (modeByte 6 n :: rest) = .ok (.deferred n, rest) :=
  parseAddress_modeByte (by decide) (by decide) n rest

theorem parseAddress_autodec (n : GReg) (rest : List Byte) :
    parseAddress (modeByte 7 n :: rest) = .ok (.autodec n, rest) :=
  parseAddress_modeByte (by decide) (by decide) n rest

theorem parseAddress_autoinc {n : GReg} (hn : n ≠ 15) (rest : List Byte) :
    parseAddress (modeByte 8 n :: rest) = .ok (.autoinc n, rest) := by
  rw [parseAddress_modeByte (by decide) (by decide)]
  simp [parseMem, hn]

theorem parseAddress_autoincDef {n : GReg} (hn : n ≠ 15) (rest : List Byte) :
    parseAddress (modeByte 9 n :: rest) = .ok (.autoincDef n, rest) := by
  rw [parseAddress_modeByte (by decide) (by decide)]
  simp [parseMem, hn]

theorem parseAddress_absolute (a : Address) (rest : List Byte) :
    parseAddress (modeByte 9 15 :: (bytesOfLong a ++ rest)) = .ok (.absolute a, rest) :=
  parseSpec_mem_iff.1 (parseSpec_absAddr .ab a rest)

/-- Modes A to F are displacement modes, deferred when odd (R83). -/
theorem parseAddress_displacement {mode : Nat} (least : 10 ≤ mode) (most : mode < 16) (n : GReg) {bs rest : List Byte}
    {d : Longword} (h : takeDisp mode bs = .ok (d, rest)) :
    parseAddress (modeByte mode n :: bs) = .ok (if mode % 2 = 0 then .disp n d else .dispDef n d, rest) := by
  rw [parseAddress_modeByte most (by omega), parseMem, if_neg (by omega), if_neg (by omega), if_neg (by omega),
    if_neg (by omega), if_pos least, h]

/-- A word displacement is sign-extended (R83). -/
theorem takeDisp_word {mode : Nat} (h : 11 < mode ∧ mode ≤ 13) (d : Word) (rest : List Byte) :
    takeDisp mode (bytesOfWord d ++ rest) = .ok (d.signExtend 32, rest) := by
  have taken : takeWord (bytesOfWord d ++ rest) = .ok (d, rest) := takeWord_bytesOfWord d rest
  simp only [bytesOfWord, List.cons_append] at taken ⊢
  rw [takeDisp, if_neg (by omega), if_pos h.2, taken]

theorem takeDisp_long {mode : Nat} (h : 13 < mode) (d : Longword) (rest : List Byte) :
    takeDisp mode (bytesOfLong d ++ rest) = .ok (d, rest) := by
  have taken : takeLong (bytesOfLong d ++ rest) = .ok (d, rest) := takeLong_bytesOfLong d rest
  simp only [bytesOfLong, List.cons_append] at taken ⊢
  rw [takeDisp, if_neg (by omega), if_neg (by omega), taken]

/-- An address specifier stands by itself and under index mode, whatever the operand (R83). -/
theorem parseSpec_address {k : OperandKind} {bs : List Byte} {m : MemMode} {rest : List Byte}
    (h : parseAddress bs = .ok (m, rest)) (x : GReg) :
    parseSpec k bs = .ok (.mem m, rest) ∧ parseSpec k (modeByte 4 x :: bs) = .ok (.mem (.indexed x m), rest) :=
  ⟨parseSpec_mem_iff.2 h, parseSpec_mem_iff.2 (parseAddress_indexed x h)⟩

/-! ### What the modes give -/

namespace Machine

theorem scalarRead_ok {α : Type} {s : State} {a : Address} {n : Nat} (h : scalarAccess s a n (.read false) = .ok)
    (value : α) : scalarRead s a n value = .next (value, s) := by
  rw [scalarRead, h]

theorem memAddr_autoincDef {s : State} {r15 : Longword} {n : GReg} (size : Nat)
    (h : scalarAccess (s.setGeneral n (s.general r15 n + 4)) (s.general r15 n) 4 (.read false) = .ok) :
    memAddr s r15 size (.autoincDef n) =
      .next (s.readL (s.general r15 n), s.setGeneral n (s.general r15 n + 4)) :=
  scalarRead_ok h _

theorem memAddr_dispDef {s : State} {r15 : Longword} {n : GReg} {d : Longword} (size : Nat)
    (h : scalarAccess s (s.general r15 n + d) 4 (.read false) = .ok) :
    memAddr s r15 size (.dispDef n d) = .next (s.readL (s.general r15 n + d), s) :=
  scalarRead_ok h _

/-- Index mode adds the index, scaled by the operand's size, to the base's address (R83). -/
theorem memAddr_indexed {s u : State} {r15 : Longword} {size : Nat} {m : MemMode} {a : Address}
    (h : memAddr s r15 size m = .next (a, u)) (x : GReg) :
    memAddr s r15 size (.indexed x m) = .next (a + s.general r15 x * BitVec.ofNat 32 size, u) := by
  simp only [memAddr, h]

theorem staticVal_rl_mem (m : MemMode) : staticVal .rl (.mem m) = none := by
  cases m <;> rfl

/-- A read longword named by an address is the longword there: its specifier updates no memory (R83). -/
theorem resolve_rl_mem {s u : State} {r15 : Longword} {m : MemMode} {a : Address}
    (h : memAddr s r15 4 m = .next (a, u)) (readable : scalarAccess u a 4 (.read false) = .ok) :
    resolve s r15 .rl (.mem m) = .next (.long (s.readL a), u) := by
  obtain ⟨r, rfl⟩ := memAddr_next h
  simp only [resolve, staticVal_rl_mem, OperandKind.size, h, memOperand]
  exact scalarRead_ok readable _

/-- A memory mode's operand, plain and under index mode. -/
theorem resolve_rl_address {s u : State} {r15 : Longword} {m : MemMode} {a : Address}
    (h : memAddr s r15 4 m = .next (a, u)) (x : GReg) :
    (scalarAccess u a 4 (.read false) = .ok → resolve s r15 .rl (.mem m) = .next (.long (s.readL a), u)) ∧
    (scalarAccess u (a + s.general r15 x * 4) 4 (.read false) = .ok →
      resolve s r15 .rl (.mem (.indexed x m)) = .next (.long (s.readL (a + s.general r15 x * 4)), u)) :=
  ⟨resolve_rl_mem h, resolve_rl_mem (memAddr_indexed h x)⟩

theorem resolveAll_single {s u : State} {k : OperandKind} {sp : Spec} {after : Nat} {v : OpVal}
    (h : resolve s (s.pc + BitVec.ofNat 32 after) k sp = .next (v, u)) :
    resolveAll s [k] [⟨sp, after⟩] = .next ([v], u) := by
  simp only [resolveAll, h]

end Machine

/-- Settles O60: each memory mode's bytes parse to its address specifier, its address is computed with its register update, and
index mode is over any of them. -/
theorem longwordOperandModes : Obligations.LongwordOperandModes := by
  unfold Obligations.LongwordOperandModes
  refine ⟨fun n x rest => ⟨fun v => parseSpec_literal rfl v rest, parseSpec_register rfl n rest, fun v => ?_, ?_⟩,
    fun s r15 n x d => ⟨fun v => ?_, rfl, rfl, ?_⟩, fun s r15 y => ⟨rfl, rfl, fun m => ?_, ?_⟩⟩
  · rw [parseSpec_immediate]
    simp [parseImmediate]
  · refine ⟨parseSpec_address (parseAddress_deferred n rest) x, parseSpec_address (parseAddress_autodec n rest) x,
      fun hn => ⟨parseSpec_address (parseAddress_autoinc hn rest) x, parseSpec_address (parseAddress_autoincDef hn rest) x⟩,
      fun a => parseSpec_address (parseAddress_absolute a rest) x, fun d => ⟨?_, ?_⟩, fun d => ⟨?_, ?_⟩,
      fun d => ⟨?_, ?_⟩, fun bytes m reads => ?_⟩
    · exact parseSpec_address (parseAddress_displacement (mode := 10) (by decide) (by decide) n rfl) x
    · exact parseSpec_address (parseAddress_displacement (mode := 11) (by decide) (by decide) n rfl) x
    · exact parseSpec_address
        (parseAddress_displacement (mode := 12) (by decide) (by decide) n (takeDisp_word (by decide) d rest)) x
    · exact parseSpec_address
        (parseAddress_displacement (mode := 13) (by decide) (by decide) n (takeDisp_word (by decide) d rest)) x
    · exact parseSpec_address
        (parseAddress_displacement (mode := 14) (by decide) (by decide) n (takeDisp_long (by decide) d rest)) x
    · exact parseSpec_address
        (parseAddress_displacement (mode := 15) (by decide) (by decide) n (takeDisp_long (by decide) d rest)) x
    · exact parseSpec_address (parseAddress_indexed n (parseSpec_mem_iff.1 reads.1)) x
  · rw [BitVec.ofNat_toNat]
    rfl
  · exact ⟨resolve_rl_address rfl x, resolve_rl_address rfl x, resolve_rl_address rfl x,
      fun h => resolve_rl_address (memAddr_autoincDef 4 h) x, resolve_rl_address rfl x, resolve_rl_address rfl x,
      fun h => resolve_rl_address (memAddr_dispDef 4 h) x,
      fun m a u h => ⟨resolve_rl_address h x, memAddr_indexed h n⟩⟩
  · exact ⟨s.general_castSucc r15 m, s.setGeneral_castSucc m y⟩
  · exact fun sp after v u h => resolveAll_single h

end Sys2Proof
end

section
/-! Control words built from fields (R85), and what the assembler makes of a mnemonic, its qualifiers and its operands
(R110 to R117). -/

namespace Sys2Proof
open Machine

/-! ### Control words from fields -/

/-- A control word as a number: each field times the weight of its lowest bit (R85). -/
theorem make_toNat (b15 b14 b13 : Bool) (f11 f7 f3 : BitVec 4) :
    (Cntrl.make b15 b14 b13 f11 f7 f3).toNat =
      32768 * b15.toNat + 16384 * b14.toNat + 8192 * b13.toNat + 256 * f11.toNat + 16 * f7.toNat + f3.toNat := by
  simp only [Cntrl.make, toNat_append_add, BitVec.toNat_ofBool, BitVec.toNat_ofNat]
  omega

theorem field_extract_toFin {w : Nat} (c : BitVec w) (i : Nat) :
    VReg.field (c.extractLsb' i 4).toFin = c.extractLsb' i 4 := rfl

/-- A word whose bit 12 is 0 is built from its own fields. -/
theorem make_fields {c : Cntrl} (h : c.getLsbD 12 = false) :
    Cntrl.make c.moe c.mtf c.exc c.va.field c.vb.field c.vc.field = c := by
  apply BitVec.eq_of_getLsbD_eq
  intro n hn
  rw [Laws.make_getLsbD]
  simp only [Cntrl.va, Cntrl.vb, Cntrl.vc, field_extract_toFin, BitVec.getLsbD_extractLsb', Cntrl.moe, Cntrl.mtf, Cntrl.exc]
  interval_cases n <;> simp [-BitVec.getLsbD_eq_getElem, h]

/-- Settles O4: each field of a built word is read back, and a word's bits are those of its fields and bit 12. -/
theorem controlWordFields : Obligations.ControlWordFields := by
  unfold Obligations.ControlWordFields
  exact ⟨fun b15 b14 b13 va vb vc => ⟨Laws.make_moe .., Laws.make_mtf .., Laws.make_exc .., Laws.make_mi .., Laws.make_va ..,
    Laws.make_vb .., Laws.make_vc .., make_toNat ..⟩, fun c h => (make_fields h).symm⟩

/-! ### Qualifiers -/

/-- The qualifier letter a grammar takes (R115). -/
def QualGrammar.letterTaken : QualGrammar → Option QualLetter
  | .letter l => some l
  | _ => Option.none

/-- What a digit sets in a grammar (R112, R113, R115). -/
def QualGrammar.digitUse : QualGrammar → DigitUse
  | .letter _ => .mask
  | .digit => .mask
  | .mtf => .mtf
  | .none => .none

theorem QualGrammar.takes_iff (g : QualGrammar) (q : Quals) :
    g.takes q = true ↔
      (q.letter = Option.none ∨ q.letter = g.letterTaken) ∧ (g.digitUse = .none → q.digit = Option.none) := by
  cases g <;> simp [QualGrammar.takes, QualGrammar.letterTaken, QualGrammar.digitUse]

/-- MOE as a digit sets it (R112, R113). -/
def DigitUse.setsMoe : DigitUse → Option Bool → Bool
  | .mask, d => d.isSome
  | _, _ => false

/-- MTF as a digit sets it (R112, R113). -/
def DigitUse.setsMtf : DigitUse → Option Bool → Bool
  | .mask, d => d.getD false
  | .mtf, d => d.getD true
  | .none, _ => false

/-- The bits a digit sets are MOE and MTF. -/
theorem DigitUse.bits_eq (u : DigitUse) (d : Option Bool) :
    u.bits d = (if u.setsMoe d then (0x8000 : Word) else 0) + (if u.setsMtf d then 0x4000 else 0) := by
  rcases d with _ | _ | _ <;> cases u <;> rfl

theorem Quals.mask_moe (q : Quals) : q.mask.moe = DigitUse.mask.setsMoe q.digit := by
  obtain ⟨l, _ | _ | _⟩ := q <;> rfl

theorem Quals.mask_mtf (q : Quals) : q.mask.mtf = DigitUse.mask.setsMtf q.digit := by
  obtain ⟨l, _ | _ | _⟩ := q <;> rfl

/-- The letter of the qualifier that a family takes (R111, R114). -/
def Kind.letter : Kind → Option QualLetter
  | .floatArith _ _ => some .u
  | .convert => some .u
  | .intArith _ => some .v
  | .load => some .m
  | .gather => some .m
  | _ => none

/-- What a digit sets in a family (R112, R113). -/
def Kind.digitUse : Kind → DigitUse
  | .merge _ => .mtf
  | .iota => .mtf
  | .control => .none
  | _ => .mask

theorem Kind.digitUse_mtf_iff (k : Kind) :
    k.digitUse = .mtf ↔ k = .iota ∨ k = .merge false ∨ k = .merge true := by
  cases k with
  | merge scalar => cases scalar <;> simp [Kind.digitUse]
  | _ => simp [Kind.digitUse]

theorem Kind.digitUse_none_iff (k : Kind) : k.digitUse = .none ↔ k = .control := by
  cases k <;> simp [Kind.digitUse]

/-- MFVP, MTVP and VSYNC alone have no control word (R140). -/
theorem Instr.kind_ne_control {i : Instr} {c : Cntrl} (h : i.cntrl = some c) : i.kind ≠ .control := by
  cases i with
  | mfvp | mtvp | vsync | mfvcr | mfvlr | mfvmrlo | mfvmrhi | synch | msynch | mtvcr | mtvlr | mtvmrlo | mtvmrhi
  | vsynch => cases h
  | _ => nofun

/-! ### Operands -/

theorem map_sort_eq_nil {ops : List AsmOperand} : ops.map AsmOperand.sort = [] ↔ ops = [] := List.map_eq_nil_iff

theorem map_sort_vreg {ops : List AsmOperand} {ss : List AsmSort} :
    ops.map AsmOperand.sort = .vreg :: ss ↔ ∃ n rest, ops = .vreg n :: rest ∧ rest.map AsmOperand.sort = ss := by
  rcases ops with _ | ⟨_ | _ | _ | _ | _, ops⟩ <;> simp [AsmOperand.sort]

theorem map_sort_long {ops : List AsmOperand} {ss : List AsmSort} :
    ops.map AsmOperand.sort = .long :: ss ↔ ∃ x rest, ops = .long x :: rest ∧ rest.map AsmOperand.sort = ss := by
  rcases ops with _ | ⟨_ | _ | _ | _ | _, ops⟩ <;> simp [AsmOperand.sort]

theorem map_sort_quad {ops : List AsmOperand} {ss : List AsmSort} :
    ops.map AsmOperand.sort = .quad :: ss ↔ ∃ x rest, ops = .quad x :: rest ∧ rest.map AsmOperand.sort = ss := by
  rcases ops with _ | ⟨_ | _ | _ | _ | _, ops⟩ <;> simp [AsmOperand.sort]

theorem map_sort_addr {ops : List AsmOperand} {ss : List AsmSort} :
    ops.map AsmOperand.sort = .addr :: ss ↔ ∃ a rest, ops = .addr a :: rest ∧ rest.map AsmOperand.sort = ss := by
  rcases ops with _ | ⟨_ | _ | _ | _ | _, ops⟩ <;> simp [AsmOperand.sort]

theorem map_sort_dest {ops : List AsmOperand} {ss : List AsmSort} :
    ops.map AsmOperand.sort = .dest :: ss ↔ ∃ d rest, ops = .dest d :: rest ∧ rest.map AsmOperand.sort = ss := by
  rcases ops with _ | ⟨_ | _ | _ | _ | _, ops⟩ <;> simp [AsmOperand.sort]

/-- The row of R116 that a shape takes its operands from. -/
def AsmShape.layout : AsmShape → AsmLayout
  | .vv _ => .vv
  | .vsL _ => .vsL
  | .vsQ _ => .vsQ
  | .vvMerge _ => .vv
  | .vsMerge _ => .vsQ
  | .vvCompare _ _ => .compareVV
  | .vsCompareL _ _ => .compareVSL
  | .vsCompareQ _ _ => .compareVSQ
  | .convert _ _ => .convert
  | .iota _ => .iota
  | .load _ => .load
  | .store _ => .store
  | .gather _ => .gather
  | .scatter _ => .scatter
  | .moveFrom _ => .moveFrom
  | .moveTo _ => .moveTo
  | .sync _ => .sync

/-- A shape makes an instruction of operands of its row's sorts, in its row's order, and of no others (R116). -/
theorem AsmShape.build_isSome_iff (sh : AsmShape) (q : Quals) (ops : List AsmOperand) :
    (sh.build q ops).isSome = true ↔ ops.map AsmOperand.sort = sh.layout.sorts := by
  constructor
  · intro h
    unfold AsmShape.build at h
    split at h
    case h_18 => cases h
    all_goals rfl
  · intro h
    cases sh <;>
      simp only [AsmShape.layout, AsmLayout.sorts, map_sort_vreg, map_sort_long, map_sort_quad, map_sort_addr, map_sort_dest,
        map_sort_eq_nil] at h
    case vv | vvMerge => obtain ⟨va, _, rfl, vb, _, rfl, vc, _, rfl, rfl⟩ := h; rfl
    case vsL | vsQ | vsMerge | gather | scatter | load | store => obtain ⟨x, _, rfl, y, _, rfl, z, _, rfl, rfl⟩ := h; rfl
    case vvCompare | vsCompareL | vsCompareQ | convert | iota => obtain ⟨x, _, rfl, y, _, rfl, rfl⟩ := h; rfl
    case moveFrom | moveTo => obtain ⟨x, _, rfl, rfl⟩ := h; rfl
    case sync => rw [h]; rfl

/-! ### The first operand -/

/-- The vector register operands in their fields (R85, R116). -/
def AsmSpec.registers (a : AsmSpec) (ops : List AsmOperand) : Word :=
  (List.zipWith (fun (n : VReg) k => BitVec.ofNat 16 (n.val * 2 ^ k)) (ops.filterMap AsmOperand.register)
    a.layout.fields).foldr (· + ·) 0

@[simp] theorem filterMap_register_vreg (n : VReg) (ops : List AsmOperand) :
    (AsmOperand.vreg n :: ops).filterMap AsmOperand.register = n :: ops.filterMap AsmOperand.register := rfl

@[simp] theorem filterMap_register_long (x : Longword) (ops : List AsmOperand) :
    (AsmOperand.long x :: ops).filterMap AsmOperand.register = ops.filterMap AsmOperand.register := rfl

@[simp] theorem filterMap_register_quad (x : Quadword) (ops : List AsmOperand) :
    (AsmOperand.quad x :: ops).filterMap AsmOperand.register = ops.filterMap AsmOperand.register := rfl

@[simp] theorem filterMap_register_addr (a : Address) (ops : List AsmOperand) :
    (AsmOperand.addr a :: ops).filterMap AsmOperand.register = ops.filterMap AsmOperand.register := rfl

@[simp] theorem filterMap_register_dest (d : Dest) (ops : List AsmOperand) :
    (AsmOperand.dest d :: ops).filterMap AsmOperand.register = ops.filterMap AsmOperand.register := rfl

/-- The first operand by its parts: the name's function, bit 13, the digit's bits and the registers. -/
theorem AsmSpec.word_eq (a : AsmSpec) (q : Quals) (ops : List AsmOperand) :
    a.word q ops = a.func + (if q.letter.isSome then 0x2000 else 0) + a.digit.bits q.digit + a.registers ops := rfl

/-- A built control word is the sum of its fields (R85). -/
theorem make_eq_add (b15 b14 b13 : Bool) (f11 f7 f3 : BitVec 4) :
    Cntrl.make b15 b14 b13 f11 f7 f3 =
      (if b13 then 0x2000 else 0) + ((if b15 then 0x8000 else 0) + (if b14 then 0x4000 else 0)) +
        (BitVec.ofNat 16 (f11.toNat * 2 ^ 8) + BitVec.ofNat 16 (f7.toNat * 2 ^ 4) +
          BitVec.ofNat 16 (f3.toNat * 2 ^ 0)) := by
  apply BitVec.eq_of_toNat_eq
  rw [make_toNat]
  have := f11.isLt
  have := f7.isLt
  have := f3.isLt
  cases b15 <;> cases b14 <;> cases b13 <;> simp [BitVec.toNat_add] <;> omega

/-- The first operand is the control word whose fields the function and the registers fill. -/
theorem AsmSpec.word_eq_make {a : AsmSpec} {q : Quals} {ops : List AsmOperand} {f11 f7 f3 : BitVec 4}
    (fields : a.func + a.registers ops =
      BitVec.ofNat 16 (f11.toNat * 2 ^ 8) + BitVec.ofNat 16 (f7.toNat * 2 ^ 4) + BitVec.ofNat 16 (f3.toNat * 2 ^ 0)) :
    a.word q ops = Cntrl.make (a.digit.setsMoe q.digit) (a.digit.setsMtf q.digit) q.letter.isSome f11 f7 f3 := by
  rw [make_eq_add, ← fields, ← DigitUse.bits_eq, a.word_eq]
  ac_rfl

/-! ### What each mnemonic's row stands for -/

/-- An instruction of the family that a mnemonic's qualifiers belong to, with this control word if it has one. -/
structure AsmSpec.Owns (a : AsmSpec) (i : Instr) (c : Option Cntrl) : Prop where
  letter : i.kind.letter = a.letter
  digit : i.kind.digitUse = a.digit
  cntrl : i.cntrl = c

/-- A shape's constructor encodes as a mnemonic's tables say: opcode byte and format, function, qualifiers and row (R100,
R115 to R117). -/
def AsmShape.Realizes (a : AsmSpec) : AsmShape → Prop
  | .vv f => a.func = 0 ∧ a.digit = .mask ∧ ∀ c, encode (f c) = encC a.code c ∧ a.Owns (f c) (some c)
  | .vsL f => a.func = 0 ∧ a.digit = .mask ∧ ∀ c x, encode (f c x) = encCL a.code c x ∧ a.Owns (f c x) (some c)
  | .vsQ f => a.func = 0 ∧ a.digit = .mask ∧ ∀ c x, encode (f c x) = encCQ a.code c x ∧ a.Owns (f c x) (some c)
  | .vvMerge f =>
    a.func = 0 ∧ a.digit = .mtf ∧ a.letter = none ∧ ∀ c, encode (f c) = encC a.code c ∧ a.Owns (f c) (some c)
  | .vsMerge f =>
    a.func = 0 ∧ a.digit = .mtf ∧ a.letter = none ∧ ∀ c x, encode (f c x) = encCQ a.code c x ∧ a.Owns (f c x) (some c)
  | .vvCompare f rel =>
    a.func = BitVec.ofNat 16 (rel.code.toNat * 2 ^ 0) ∧ a.digit = .mask ∧ a.letter = none ∧
      ∀ c, encode (f c) = encC a.code c ∧ a.Owns (f c) (some c)
  | .vsCompareL f rel =>
    a.func = BitVec.ofNat 16 (rel.code.toNat * 2 ^ 0) ∧ a.digit = .mask ∧ a.letter = none ∧
      ∀ c x, encode (f c x) = encCL a.code c x ∧ a.Owns (f c x) (some c)
  | .vsCompareQ f rel =>
    a.func = BitVec.ofNat 16 (rel.code.toNat * 2 ^ 0) ∧ a.digit = .mask ∧ a.letter = none ∧
      ∀ c x, encode (f c x) = encCQ a.code c x ∧ a.Owns (f c x) (some c)
  | .convert f k =>
    a.func = BitVec.ofNat 16 (k.code.toNat * 2 ^ 8) ∧ a.digit = .mask ∧
      ∀ c, encode (f c) = encC a.code c ∧ a.Owns (f c) (some c)
  | .iota f =>
    a.func = 0 ∧ a.digit = .mtf ∧ a.letter = none ∧ ∀ c x, encode (f c x) = encCL a.code c x ∧ a.Owns (f c x) (some c)
  | .load f => a.func = 0 ∧ a.digit = .mask ∧ ∀ c b x, encode (f c b x) = encCAL a.code c b x ∧ a.Owns (f c b x) (some c)
  | .store f => a.func = 0 ∧ a.digit = .mask ∧ ∀ c b x, encode (f c b x) = encCAL a.code c b x ∧ a.Owns (f c b x) (some c)
  | .gather f => a.func = 0 ∧ a.digit = .mask ∧ ∀ c b, encode (f c b) = encCA a.code c b ∧ a.Owns (f c b) (some c)
  | .scatter f => a.func = 0 ∧ a.digit = .mask ∧ ∀ c b, encode (f c b) = encCA a.code c b ∧ a.Owns (f c b) (some c)
  | .moveFrom f => a.digit = .none ∧ a.letter = none ∧ ∀ d, encode (f d) = encRW a.code a.func d ∧ a.Owns (f d) none
  | .moveTo f => a.digit = .none ∧ a.letter = none ∧ ∀ x, encode (f x) = encRL a.code a.func x ∧ a.Owns (f x) none
  | .sync f => a.func = 0 ∧ a.digit = .none ∧ a.letter = none ∧ ∀ n, encode (f n) = encR a.code n ∧ a.Owns (f n) none

/-- The model's row of a mnemonic agrees with the spec's tables (R100, R115 to R117). -/
theorem Mnemonic.row_realizes (m : Mnemonic) : m.row.shape.Realizes m.spec := by
  cases m with
  | vvgtrf | vveqlf | vvlssf | vvleqf | vvneqf | vvgeqf | vvgtrd | vveqld | vvlssd | vvleqd | vvneqd | vvgeqd
  | vvgtrg | vveqlg | vvlssg | vvleqg | vvneqg | vvgeqg | vvgtrl | vveqll | vvlssl | vvleql | vvneql | vvgeql
  | vvmerge => exact ⟨rfl, rfl, rfl, fun c => ⟨rfl, rfl, rfl, rfl⟩⟩
  | vsgtrf | vseqlf | vslssf | vsleqf | vsneqf | vsgeqf | vsgtrd | vseqld | vslssd | vsleqd | vsneqd | vsgeqd
  | vsgtrg | vseqlg | vslssg | vsleqg | vsneqg | vsgeqg | vsgtrl | vseqll | vslssl | vsleql | vsneql | vsgeql
  | iota | vsmerge | vsmergef | vsmerged | vsmergeg => exact ⟨rfl, rfl, rfl, fun c x => ⟨rfl, rfl, rfl, rfl⟩⟩
  | mfvcr | mfvlr | mfvmrlo | mfvmrhi | synch | msynch | mtvcr | mtvlr | mtvmrlo | mtvmrhi =>
    exact ⟨rfl, rfl, fun x => ⟨rfl, rfl, rfl, rfl⟩⟩
  | vsynch => exact ⟨rfl, rfl, rfl, fun n => ⟨rfl, rfl, rfl, rfl⟩⟩
  | vldl | vldq | vstl | vstq => exact ⟨rfl, rfl, fun c b x => ⟨rfl, rfl, rfl, rfl⟩⟩
  | vsaddl | vsaddg | vsaddf | vsaddd | vssubl | vssubg | vssubf | vssubd | vsmull | vsmulg | vsmulf | vsmuld
  | vsdivg | vsdivf | vsdivd | vsbisl | vsbicl | vssrll | vsslll | vsxorl | vgathl | vgathq | vscatl | vscatq =>
    exact ⟨rfl, rfl, fun c x => ⟨rfl, rfl, rfl, rfl⟩⟩
  | _ => exact ⟨rfl, rfl, fun c => ⟨rfl, rfl, rfl, rfl⟩⟩

theorem Mnemonic.row_layout (m : Mnemonic) : m.row.shape.layout = m.spec.layout := by
  cases m <;> rfl

theorem Mnemonic.row_quals (m : Mnemonic) :
    m.row.quals.letterTaken = m.spec.letter ∧ m.row.quals.digitUse = m.spec.digit := by
  cases m <;> exact ⟨rfl, rfl⟩

/-! ### What the assembler answers -/

/-- The instruction a mnemonic's tables say: its bytes, and a control word with the qualifiers' bits. -/
structure Assembled (a : AsmSpec) (q : Quals) (ops : List AsmOperand) (i : Instr) : Prop where
  bytes : encode i = 0xFD :: a.code :: (immWord (a.word q ops) ++ ops.flatMap AsmOperand.bytes)
  letter : i.kind.letter = a.letter
  digit : i.kind.digitUse = a.digit
  cntrl : ∀ c, i.cntrl = some c →
    ∃ f11 f7 f3, c = Cntrl.make (a.digit.setsMoe q.digit) (a.digit.setsMtf q.digit) q.letter.isSome f11 f7 f3

/-- An instruction whose control word has the tables' fields is the one the tables say. -/
theorem Assembled.of_make {a : AsmSpec} {q : Quals} {ops : List AsmOperand} {i : Instr} {b15 b14 b13 : Bool}
    {f11 f7 f3 : BitVec 4} (owns : a.Owns i (some (Cntrl.make b15 b14 b13 f11 f7 f3)))
    (h15 : b15 = a.digit.setsMoe q.digit) (h14 : b14 = a.digit.setsMtf q.digit) (h13 : b13 = q.letter.isSome)
    (fields : a.func + a.registers ops =
      BitVec.ofNat 16 (f11.toNat * 2 ^ 8) + BitVec.ofNat 16 (f7.toNat * 2 ^ 4) + BitVec.ofNat 16 (f3.toNat * 2 ^ 0))
    (bytes : encode i =
      0xFD :: a.code :: (immWord (Cntrl.make b15 b14 b13 f11 f7 f3) ++ ops.flatMap AsmOperand.bytes)) :
    Assembled a q ops i where
  bytes := by rw [bytes, h15, h14, h13, AsmSpec.word_eq_make fields]
  letter := owns.letter
  digit := owns.digit
  cntrl c hc := by
    rw [owns.cntrl] at hc
    cases hc
    exact ⟨f11, f7, f3, by rw [h15, h14, h13]⟩

/-- The same where a digit sets MOE and MTF (R112). -/
theorem Assembled.of_mask {a : AsmSpec} {q : Quals} {ops : List AsmOperand} {i : Instr} {b13 : Bool} {f11 f7 f3 : BitVec 4}
    (digit : a.digit = .mask) (owns : a.Owns i (some (Cntrl.make q.mask.moe q.mask.mtf b13 f11 f7 f3)))
    (h13 : b13 = q.letter.isSome)
    (fields : a.func + a.registers ops =
      BitVec.ofNat 16 (f11.toNat * 2 ^ 8) + BitVec.ofNat 16 (f7.toNat * 2 ^ 4) + BitVec.ofNat 16 (f3.toNat * 2 ^ 0))
    (bytes : encode i =
      0xFD :: a.code :: (immWord (Cntrl.make q.mask.moe q.mask.mtf b13 f11 f7 f3) ++ ops.flatMap AsmOperand.bytes)) :
    Assembled a q ops i :=
  .of_make owns (digit ▸ q.mask_moe) (digit ▸ q.mask_mtf) h13 fields bytes

/-- The same where a digit sets MTF alone (R113), and there is no letter. -/
theorem Assembled.of_mtf {a : AsmSpec} {q : Quals} {ops : List AsmOperand} {i : Instr} {f11 f7 f3 : BitVec 4}
    (digit : a.digit = .mtf) (noLetter : q.letter = none) (owns : a.Owns i (some (Cntrl.make false q.mtf false f11 f7 f3)))
    (fields : a.func + a.registers ops =
      BitVec.ofNat 16 (f11.toNat * 2 ^ 8) + BitVec.ofNat 16 (f7.toNat * 2 ^ 4) + BitVec.ofNat 16 (f3.toNat * 2 ^ 0))
    (bytes : encode i =
      0xFD :: a.code :: (immWord (Cntrl.make false q.mtf false f11 f7 f3) ++ ops.flatMap AsmOperand.bytes)) :
    Assembled a q ops i :=
  .of_make owns (digit ▸ rfl) (digit ▸ rfl) (by rw [noLetter]; rfl) fields bytes

/-- An instruction without a control word whose regnum is its name's is the one the tables say. -/
theorem Assembled.of_regnum {a : AsmSpec} {q : Quals} {ops : List AsmOperand} {i : Instr} (owns : a.Owns i none)
    (word : a.word q ops = a.func)
    (bytes : encode i = 0xFD :: a.code :: (immWord a.func ++ ops.flatMap AsmOperand.bytes)) :
    Assembled a q ops i where
  bytes := by rw [bytes, word]
  letter := owns.letter
  digit := owns.digit
  cntrl c hc := by
    rw [owns.cntrl] at hc
    cases hc

/-- With qualifiers its grammar takes, a mnemonic without a digit has its function alone as first operand. -/
theorem AsmSpec.word_of_no_qualifiers {a : AsmSpec} {q : Quals} {ops : List AsmOperand} (hl : q.letter = none)
    (hd : a.digit = .none) (regs : a.registers ops = 0) : a.word q ops = a.func := by
  rw [a.word_eq, hl, hd, regs]
  simp [DigitUse.bits]


/-- A shape makes of a mnemonic's operands the instruction the mnemonic's tables say. -/
theorem AsmShape.build_assembled {a : AsmSpec} {sh : AsmShape} {q : Quals} {ops : List AsmOperand} {i : Instr}
    (real : sh.Realizes a) (layout : a.layout = sh.layout) (taken : q.letter = none ∨ q.letter = a.letter)
    (h : sh.build q ops = some i) : Assembled a q ops i := by
  have noLetter (none : a.letter = none) : q.letter = Option.none := taken.elim id fun same => same.trans none
  unfold AsmShape.build at h
  split at h <;> cases h
  case h_1 f va vb vc =>
    obtain ⟨func, digit, enc⟩ := real
    obtain ⟨bytes, owns⟩ := enc (Cntrl.vv q.bit13 q.mask va vb vc)
    refine .of_mask digit owns rfl ?_ (bytes.trans rfl)
    simp [func, AsmSpec.registers, layout, AsmShape.layout, AsmLayout.fields, VReg.field]
    ac_rfl
  case h_2 f x vb vc | h_3 f x vb vc =>
    obtain ⟨func, digit, enc⟩ := real
    obtain ⟨bytes, owns⟩ := enc (Cntrl.vs q.bit13 q.mask vb vc) x
    refine .of_mask digit owns rfl ?_ (bytes.trans rfl)
    simp [func, AsmSpec.registers, layout, AsmShape.layout, AsmLayout.fields, VReg.field]
  case h_4 f va vb vc =>
    obtain ⟨func, digit, letter, enc⟩ := real
    obtain ⟨bytes, owns⟩ := enc (Cntrl.vvMerge q.mtf va vb vc)
    refine .of_mtf digit (noLetter letter) owns ?_ (bytes.trans rfl)
    simp [func, AsmSpec.registers, layout, AsmShape.layout, AsmLayout.fields, VReg.field]
    ac_rfl
  case h_5 f x vb vc =>
    obtain ⟨func, digit, letter, enc⟩ := real
    obtain ⟨bytes, owns⟩ := enc (Cntrl.vsMerge q.mtf vb vc) x
    refine .of_mtf digit (noLetter letter) owns ?_ (bytes.trans rfl)
    simp [func, AsmSpec.registers, layout, AsmShape.layout, AsmLayout.fields, VReg.field]
  case h_6 f rel va vb =>
    obtain ⟨func, digit, letter, enc⟩ := real
    obtain ⟨bytes, owns⟩ := enc (Cntrl.vvCmp q.mask va vb rel)
    refine .of_mask digit owns (by rw [noLetter letter]; rfl) ?_ (bytes.trans rfl)
    simp [func, AsmSpec.registers, layout, AsmShape.layout, AsmLayout.fields, VReg.field]
    ac_rfl
  case h_7 f rel x vb | h_8 f rel x vb =>
    obtain ⟨func, digit, letter, enc⟩ := real
    obtain ⟨bytes, owns⟩ := enc (Cntrl.vsCmp q.mask vb rel) x
    refine .of_mask digit owns (by rw [noLetter letter]; rfl) ?_ (bytes.trans rfl)
    simp [func, AsmSpec.registers, layout, AsmShape.layout, AsmLayout.fields, VReg.field]
    ac_rfl
  case h_9 f k vb vc =>
    obtain ⟨func, digit, enc⟩ := real
    obtain ⟨bytes, owns⟩ := enc (Cntrl.cvt k q.bit13 q.mask vb vc)
    refine .of_mask digit owns rfl ?_ (bytes.trans rfl)
    simp [func, AsmSpec.registers, layout, AsmShape.layout, AsmLayout.fields, VReg.field]
    ac_rfl
  case h_10 f x vc =>
    obtain ⟨func, digit, letter, enc⟩ := real
    obtain ⟨bytes, owns⟩ := enc (Cntrl.iota q.mtf vc) x
    refine .of_mtf digit (noLetter letter) owns ?_ (bytes.trans rfl)
    simp [func, AsmSpec.registers, layout, AsmShape.layout, AsmLayout.fields, VReg.field]
  case h_11 f b x vc | h_12 f vc b x =>
    obtain ⟨func, digit, enc⟩ := real
    obtain ⟨bytes, owns⟩ := enc (Cntrl.strided q.bit13 q.mask vc) b x
    refine .of_mask digit owns rfl ?_ (bytes.trans rfl)
    simp [func, AsmSpec.registers, layout, AsmShape.layout, AsmLayout.fields, VReg.field]
  case h_13 f b vb vc | h_14 f vc b vb =>
    obtain ⟨func, digit, enc⟩ := real
    obtain ⟨bytes, owns⟩ := enc (Cntrl.vs q.bit13 q.mask vb vc) b
    refine .of_mask digit owns rfl ?_ (bytes.trans rfl)
    simp [func, AsmSpec.registers, layout, AsmShape.layout, AsmLayout.fields, VReg.field, add_comm]
  case h_15 f d =>
    obtain ⟨digit, letter, enc⟩ := real
    obtain ⟨bytes, owns⟩ := enc d
    refine .of_regnum owns (AsmSpec.word_of_no_qualifiers (noLetter letter) digit ?_) ?_
    · simp [AsmSpec.registers]
    · simp [bytes, encRW, AsmOperand.bytes]
  case h_16 f x =>
    obtain ⟨digit, letter, enc⟩ := real
    obtain ⟨bytes, owns⟩ := enc x
    refine .of_regnum owns (AsmSpec.word_of_no_qualifiers (noLetter letter) digit ?_) (bytes.trans rfl)
    simp [AsmSpec.registers]
  case h_17 f =>
    obtain ⟨func, digit, letter, enc⟩ := real
    obtain ⟨bytes, owns⟩ := enc 0
    exact .of_regnum owns (AsmSpec.word_of_no_qualifiers (noLetter letter) digit rfl) (bytes.trans (by rw [func]; rfl))

theorem assemble_eq_some {m : Mnemonic} {q : Quals} {ops : List AsmOperand} {i : Instr} :
    assemble m q ops = some i ↔ m.row.quals.takes q = true ∧ m.row.shape.build q ops = some i := by
  unfold assemble
  split <;> simp_all

/-- What the assembler answers is the instruction the tables say, and its qualifiers are ones the mnemonic takes. -/
theorem assemble_assembled {m : Mnemonic} {q : Quals} {ops : List AsmOperand} {i : Instr} (h : assemble m q ops = some i) :
    Assembled m.spec q ops i ∧ (q.letter = none ∨ q.letter = m.spec.letter) ∧ (m.spec.digit = .none → q.digit = none) := by
  obtain ⟨taken, built⟩ := assemble_eq_some.1 h
  obtain ⟨letterEq, digitEq⟩ := m.row_quals
  rw [QualGrammar.takes_iff, letterEq, digitEq] at taken
  exact ⟨AsmShape.build_assembled m.row_realizes m.row_layout.symm taken.1 built, taken⟩

/-- The assembler answers exactly when the qualifiers are ones the mnemonic takes and the operands are its row's (R115,
R116). -/
theorem assemble_isSome_iff (m : Mnemonic) (q : Quals) (ops : List AsmOperand) :
    (assemble m q ops).isSome = true ↔
      (q.letter = none ∨ q.letter = m.spec.letter) ∧ (m.spec.digit = .none → q.digit = none) ∧
        ops.map AsmOperand.sort = m.spec.layout.sorts := by
  obtain ⟨letterEq, digitEq⟩ := m.row_quals
  rw [← letterEq, ← digitEq, ← m.row_layout, ← AsmShape.build_isSome_iff _ q, ← and_assoc, ← QualGrammar.takes_iff]
  unfold assemble
  split <;> simp_all

/-- Settles O5: the five lines, assembled. -/
theorem assemblerExamples : Obligations.AssemblerExamples := by
  unfold Obligations.AssemblerExamples
  exact ⟨rfl, rfl, rfl, rfl, fun _ => rfl⟩

/-- Settles O6: the control word is built with the bits that the qualifiers set, and the family says what a digit sets. -/
theorem qualifiersSetControlWord : Obligations.QualifiersSetControlWord := by
  unfold Obligations.QualifiersSetControlWord
  intro m q ops i c h hc
  obtain ⟨assembled, -⟩ := assemble_assembled h
  obtain ⟨f11, f7, f3, rfl⟩ := assembled.cntrl c hc
  refine ⟨Laws.make_exc .., ?_⟩
  rw [Laws.make_moe, Laws.make_mtf, ← assembled.digit]
  simp only [← Kind.digitUse_mtf_iff]
  cases use : i.kind.digitUse with
  | mask => exact ⟨rfl, rfl⟩
  | mtf => exact ⟨rfl, rfl⟩
  | none => exact absurd ((Kind.digitUse_none_iff _).1 use) (Instr.kind_ne_control hc)

/-- Settles O7: each shape takes its row's operands, and the instruction's family has the mnemonic's letter. -/
theorem assemblerRefusesOtherLetters : Obligations.AssemblerRefusesOtherLetters := by
  unfold Obligations.AssemblerRefusesOtherLetters
  intro m q ops
  refine ⟨assemble_isSome_iff m q ops, fun i h => ?_⟩
  obtain ⟨assembled, letter, digit⟩ := assemble_assembled h
  refine ⟨assembled.bytes, ?_⟩
  rw [← assembled.letter] at letter
  rw [← assembled.digit] at digit
  cases hk : i.kind <;> rw [hk] at letter digit
  case floatArith | convert | intArith | load | gather => exact letter
  case control => exact ⟨letter.elim id id, digit rfl⟩
  case logical | shift | floatCompare | intCompare | merge | iota | store | scatter => exact letter.elim id id

end Sys2Proof
end

section
/-! The compares and conversions that complete: the result of every processed element and the frame; the mnemonics are their
opcodes with a built control word. -/

namespace Sys2Proof
namespace Machine

/-! ### Control words that pass the tests -/

theorem checkedMbz_ok {mask c : Cntrl} (h : Cntrl.zeroUnder mask c = true) (body : Outcome) :
    checkedMbz mask c body = body := if_pos h

theorem checkedCmp_ok {mask c : Cntrl} {rel : Rel} (hz : Cntrl.zeroUnder mask c = true) (h3 : c.cmpBit3 = false)
    (hr : c.rel = some rel) (body : Rel → Outcome) : checkedCmp mask c body = body rel := by
  rw [checkedCmp, checkedMbz_ok hz, h3, hr]
  rfl

/-! ### Compares -/

/-- One element of a compare of a type (R272, R293). -/
def typedCmp : (ty : DType) → Rel → BitVec ty.width → BitVec ty.width → CmpRes
  | .l, rel, x, y => intCmp rel x y
  | .f, rel, x, y => floatCmp vaxFP .f rel x y
  | .d, rel, x, y => floatCmp vaxFP .d rel x y
  | .g, rel, x, y => floatCmp vaxFP .g rel x y

theorem floatCmp_bit {t : FType} {x y : BitVec t.dtype.width} (rel : Rel) (h : vaxFP.cmp t x y ≠ .reservedOperand) :
    floatCmp vaxFP t rel x y = .bit (relHolds rel (vaxFP.cmp t x y)) := by
  unfold floatCmp
  split
  · next reserved => exact absurd reserved h
  · rfl

/-- A compare of two data that stand in an order is that order's outcome. -/
theorem typedCmp_bit {ty : DType} {x y : BitVec ty.width} (rel : Rel) (h : orderOf ty x y ≠ .reservedOperand) :
    typedCmp ty rel x y = .bit (relHolds rel (orderOf ty x y)) := by
  cases ty with
  | l => rfl
  | f | d | g => exact floatCmp_bit rel h

theorem exec_compareVV (ty : DType) (c : Cntrl) (s : State) :
    exec (compareVV ty c) s =
      checkedCmp mbzVVNoExc c fun rel =>
        compareLoop (enabled c s) (fun e => typedCmp ty rel (elemDatum (e c.va) ty) (elemDatum (e c.vb) ty)) s := by
  cases ty <;> rfl

theorem exec_compareVS (ty : DType) (c : Cntrl) (x : BitVec ty.width) (s : State) :
    exec (compareVS ty c x) s =
      checkedCmp mbzVSNoExc c fun rel =>
        compareLoop (enabled c s) (fun e => typedCmp ty rel x (elemDatum (e c.vb) ty)) s := by
  cases ty <;> rfl

/-- A compare loop without a reserved operand in a processed element completes with every outcome (R272, R293). -/
theorem compareLoop_compared {s : State} {c : Cntrl} {ty : DType} {rel : Rel}
    {x y : (VReg → Element) → BitVec ty.width}
    (h : ∀ i, Processed c s i → orderOf ty (x fun n => s.elem n i) (y fun n => s.elem n i) ≠ .reservedOperand) :
    ∃ t, compareLoop (enabled c s) (fun e => typedCmp ty rel (x e) (y e)) s = .next t ∧
      Compared c ty rel (fun i => x fun n => s.elem n i) (fun i => y fun n => s.elem n i) s t := by
  obtain ⟨t, ht, done⟩ := compareLoop_completes (sel := enabled c s) (f := fun e => typedCmp ty rel (x e) (y e)) (s := s)
    fun i hi en => by
      rw [typedCmp_bit rel (h i ((processed_iff c s i).2 ⟨hi, en⟩))]
      trivial
  refine ⟨t, ht, done.frame, fun i => ⟨fun hp => ?_, fun hp => done.other i fun both => hp ((processed_iff c s i).2 both)⟩⟩
  obtain ⟨hi, en⟩ := (processed_iff c s i).1 hp
  have outcome := done.result i hi en
  rw [typedCmp_bit rel (h i hp)] at outcome
  exact (CmpRes.bit.inj outcome).symm

/-- The vector-vector compare opcodes complete (R270, R290). -/
theorem compareVV_completes {s : State} {ty : DType} {c : Cntrl} {rel : Rel} (hz : Cntrl.zeroUnder mbzVVNoExc c = true)
    (h3 : c.cmpBit3 = false) (hr : c.rel = some rel)
    (h : ∀ i, Processed c s i →
      orderOf ty (elemDatum (s.elem c.va i) ty) (elemDatum (s.elem c.vb i) ty) ≠ .reservedOperand) :
    ∃ t, exec (compareVV ty c) s = .next t ∧
      Compared c ty rel (fun i => elemDatum (s.elem c.va i) ty) (fun i => elemDatum (s.elem c.vb i) ty) s t := by
  rw [exec_compareVV, checkedCmp_ok hz h3 hr]
  exact compareLoop_compared (x := fun e => elemDatum (e c.va) ty) (y := fun e => elemDatum (e c.vb) ty) h

/-- The vector-scalar compare opcodes complete, the scalar on the left (R270, R290). -/
theorem compareVS_completes {s : State} {ty : DType} {c : Cntrl} {rel : Rel} {x : BitVec ty.width}
    (hz : Cntrl.zeroUnder mbzVSNoExc c = true) (h3 : c.cmpBit3 = false) (hr : c.rel = some rel)
    (h : ∀ i, Processed c s i → orderOf ty x (elemDatum (s.elem c.vb i) ty) ≠ .reservedOperand) :
    ∃ t, exec (compareVS ty c x) s = .next t ∧
      Compared c ty rel (fun _ => x) (fun i => elemDatum (s.elem c.vb i) ty) s t := by
  rw [exec_compareVS, checkedCmp_ok hz h3 hr]
  exact compareLoop_compared (x := fun _ => x) (y := fun e => elemDatum (e c.vb) ty) h

theorem exec_relationVV (ty : DType) (rel : Rel) (q : MaskQual) (va vb : VReg) (s : State) :
    exec (relationVV ty rel q va vb) s = exec (compareVV ty (Cntrl.vvCmp q va vb rel)) s := by
  cases ty <;> cases rel <;> rfl

theorem exec_relationVS (ty : DType) (rel : Rel) (q : MaskQual) (x : BitVec ty.width) (vb : VReg) (s : State) :
    exec (relationVS ty rel q x vb) s = exec (compareVS ty (Cntrl.vsCmp q vb rel) x) s := by
  cases ty <;> cases rel <;> rfl

/-! ### Register loops with a datum per element -/

/-- A register loop whose processed elements all have a datum completes with every datum (R25). -/
theorem registerLoop_computed {s : State} {c : Cntrl} {ty : DType} {f : ElemIx → (VReg → Element) → ElemRes}
    {x : ElemIx → BitVec ty.width} (h : ∀ i, Processed c s i → (f i fun n => s.elem n i) = .datum ty (x i)) :
    ∃ t, registerLoop (enabled c s) c.vc f s = .next t ∧ Computed c ty x s t := by
  obtain ⟨t, ht, done⟩ := registerLoop_completes (sel := enabled c s) (vc := c.vc) (f := f) (s := s) fun i hi en => by
    rw [h i ((processed_iff c s i).2 ⟨hi, en⟩)]
    exact ElemRes.stores_datum ty (x i)
  refine ⟨t, ht, done.frame, fun i => ⟨fun hp => ?_, fun hp => done.other i fun both => hp ((processed_iff c s i).2 both)⟩⟩
  obtain ⟨hi, en⟩ := (processed_iff c s i).1 hp
  have result := done.result i hi en
  rw [h i hp] at result
  exact (ElemRes.holds_datum ty (x i)).1 result

/-! ### Conversions -/

/-- An answer that stops no element is stored as its datum (R351). -/
theorem cvtRes_stored (fp : FP) (ty : DType) {exc : Bool} {answer : CvtResult ty.width} (h : StoresCvt exc answer) :
    cvtRes fp ty exc answer = .datum ty (storedCvt fp ty answer) := by
  cases answer with
  | value v => rfl
  | underflow | integerOverflow v =>
    cases h
    rfl
  | overflow | reservedOperand => exact h.elim

/-- VVCVT completes with every converted datum (R350, R351). -/
theorem vvcvt_completes {s : State} {c : Cntrl} {f : CvtFunc} (hz : Cntrl.zeroUnder mbzVV c = true)
    (hf : c.cvtFunc = some f)
    (h : ∀ i, Processed c s i → StoresCvt c.exc (vaxFP.cvt f (elemDatum (s.elem c.vb i) f.src))) :
    ∃ t, exec (.vvcvt c) s = .next t ∧
      Computed c f.dst (fun i => storedCvt vaxFP f.dst (vaxFP.cvt f (elemDatum (s.elem c.vb i) f.src))) s t := by
  have loop : exec (.vvcvt c) s = convertLoop vaxFP f c s := by
    show convert vaxFP c s = _
    rw [convert, checkedMbz_ok hz, hf]
  rw [loop]
  exact registerLoop_computed fun i hp => cvtRes_stored vaxFP f.dst (h i hp)

theorem exec_conversion (f : CvtFunc) (u : Bool) (q : MaskQual) (vb vc : VReg) (s : State) :
    exec (conversion f u q vb vc) s = exec (.vvcvt (Cntrl.cvt f u q vb vc)) s := by
  cases f <;> rfl

end Machine

open Machine

/-- Settles O29: the mnemonic is its type's compare with a built control word, whose fields are the qualifier's, the
registers and the relation. -/
theorem compareMnemonicsVectorVector : Obligations.CompareMnemonicsVectorVector := by
  unfold Obligations.CompareMnemonicsVectorVector
  intro s ty rel q va vb c x y h
  have hva : c.va = va := Laws.make_va ..
  have hvb : c.vb = vb := Laws.make_vb ..
  refine ⟨Laws.make_moe .., Laws.make_mtf .., ?_⟩
  have done := compareVV_completes (s := s) (ty := ty) (c := c) (rel := rel) (Laws.make_mbzVVNoExc ..)
    (Laws.make_cmpBit3 ..) (Laws.make_rel ..) (by rw [hva, hvb]; exact h)
  rw [hva, hvb] at done
  rw [exec_relationVV]
  exact done

/-- Settles O30: as for the vector-vector mnemonics, with the scalar on the left. -/
theorem compareMnemonicsVectorScalar : Obligations.CompareMnemonicsVectorScalar := by
  unfold Obligations.CompareMnemonicsVectorScalar
  intro s ty rel q x vb c y h
  have hvb : c.vb = vb := Laws.make_vb ..
  refine ⟨Laws.make_moe .., Laws.make_mtf .., ?_⟩
  have done := compareVS_completes (s := s) (ty := ty) (c := c) (rel := rel) (x := x) (Laws.make_mbzVSNoExc ..)
    (Laws.make_cmpBit3 ..) (Laws.make_rel ..) (by rw [hvb]; exact h)
  rw [hvb] at done
  rw [exec_relationVS]
  exact done

/-- Settles O36: the mnemonic is VVCVT with a built control word, whose fields are the qualifiers', the registers and the
conversion's code. -/
theorem convertMnemonics : Obligations.ConvertMnemonics := by
  unfold Obligations.ConvertMnemonics
  intro s f u q vb vc c answer h
  have hvb : c.vb = vb := Laws.make_vb ..
  have hexc : c.exc = u := Laws.make_exc ..
  refine ⟨Laws.make_moe .., Laws.make_mtf .., Laws.make_vc .., ?_⟩
  have done := vvcvt_completes (s := s) (c := c) (f := f) (Laws.make_mbzVV ..) (Laws.make_cvtFunc ..)
    (by rw [hvb, hexc]; exact h)
  rw [hvb] at done
  rw [exec_conversion]
  exact done

end Sys2Proof
end

section
/-! The two grounds of refusal: an encoding without a meaning, always; an access to device space or the program text, where the
encoding has one (R58, R64, R88, R103). -/

namespace Sys2Proof
namespace Machine

/-! ### Must-be-zero fields -/

/-- Every instruction with a control word tests its family's must-be-zero fields first (R88). -/
theorem exec_checksMbz {i : Instr} {c : Cntrl} (hc : i.cntrl = some c) (s : State) :
    ∃ body, exec i s = checkedMbz i.kind.mbz c body := by
  cases i with
  | mfvp | mtvp | vsync | mfvcr | mfvlr | mfvmrlo | mfvmrhi | synch | msynch | mtvcr | mtvlr | mtvmrlo | mtvmrhi
  | vsynch => cases hc
  | _ =>
    cases hc
    exact ⟨_, rfl⟩

/-! ### Refusals for an access -/

/-- A refusal, if it is one, for device space or the program text (R58, R64). -/
def RefusedForAccess (out : Outcome) : Prop :=
  ∀ r, out = .refused r → ∃ a, r = .deviceSpace a ∨ r = .storeToProgramText a

theorem RefusedForAccess.next (s : State) : RefusedForAccess (.next s) := nofun

theorem RefusedForAccess.fault (r : Fault) : RefusedForAccess (.fault r) := nofun

theorem forElements_refusedForAccess {body : ElemIx → State → Outcome} (h : ∀ i s, RefusedForAccess (body i s))
    (is : List ElemIx) (s : State) : RefusedForAccess (forElements body is s) := by
  induction is generalizing s with
  | nil => exact .next s
  | cons i is ih =>
    simp only [forElements]
    split
    · exact ih _
    · exact .fault _
    · next hb => rw [← hb]; exact h i s

/-- An element's result is refused, if at all, for device space (R58). -/
def ElemRes.RefusedForAccess (res : ElemRes) : Prop := ∀ r, res = .refuse r → ∃ a, r = .deviceSpace a

theorem registerLoop_refusedForAccess {sel : ElemIx → Bool} {vc : VReg} {f : ElemIx → (VReg → Element) → ElemRes}
    {s : State} (h : ∀ i e, (f i e).RefusedForAccess) : RefusedForAccess (registerLoop sel vc f s) := by
  refine forElements_refusedForAccess (fun i s => ?_) s.elements s
  unfold registerElem
  split
  · split
    · exact .next _
    · exact .next _
    · exact .fault _
    · next r hf =>
      intro r' same
      cases same
      obtain ⟨a, ha⟩ := h i _ r hf
      exact ⟨a, .inl ha⟩
  · exact .next s

theorem compareLoop_refusedForAccess (sel : ElemIx → Bool) (f : (VReg → Element) → CmpRes) (s : State) :
    RefusedForAccess (compareLoop sel f s) := by
  rcases compareLoop_cases sel f s with ⟨t, h, -⟩ | ⟨k, e, left, -, -, -, -, h⟩ <;> rw [h]
  · exact .next t
  · exact .fault _

theorem storeLoop_refusedForAccess (sel : ElemIx → Bool) (w : MemWidth) (addr : ElemIx → Address) (vc : VReg)
    (s : State) : RefusedForAccess (storeLoop sel w addr vc s) := by
  refine forElements_refusedForAccess (fun i s => ?_) s.elements s
  unfold storeLoopElem storeElem
  split
  · split
    · exact .next _
    · exact .fault _
    · next r hr =>
      intro r' same
      cases same
      exact ⟨addr i, checkStore_refuse hr⟩
  · exact .next s

theorem loadElem_refusedForAccess (s : State) (w : MemWidth) (mi : Bool) (a : Address) :
    (loadElem s w mi a).RefusedForAccess := by
  intro r h
  unfold loadElem at h
  split at h
  · cases h
  · next hr =>
    cases h
    exact ⟨a, checkLoad_refuse hr⟩
  · cases w <;> cases h

theorem datum_refusedForAccess (ty : DType) (x : BitVec ty.width) : (ElemRes.datum ty x).RefusedForAccess := by
  cases ty <;> exact nofun

theorem floatRes_refusedForAccess (fp : FP) (t : FType) (exc : Bool) (x : FPResult t.dtype.width) :
    (floatRes fp t exc x).RefusedForAccess := by
  cases x with
  | value v => exact datum_refusedForAccess _ v
  | underflow => cases exc with
    | true => exact nofun
    | false => exact datum_refusedForAccess _ _
  | _ => exact nofun

theorem cvtRes_refusedForAccess (fp : FP) (t : DType) (exc : Bool) (x : CvtResult t.width) :
    (cvtRes fp t exc x).RefusedForAccess := by
  cases x with
  | value v => exact datum_refusedForAccess _ v
  | underflow => cases exc with
    | true => exact nofun
    | false => exact datum_refusedForAccess _ _
  | integerOverflow v => cases exc with
    | true => exact nofun
    | false => exact datum_refusedForAccess _ v
  | _ => exact nofun

theorem intElem_refusedForAccess (op : IOp) (exc : Bool) (x y : Longword) :
    (intElem op exc x y).RefusedForAccess := by
  unfold intElem
  split <;> exact nofun

/-! ### Encodings with a meaning -/

theorem checkedMbz_refusedForAccess {mask c : Cntrl} {body : Outcome} (wf : Cntrl.zeroUnder mask c = true)
    (h : RefusedForAccess body) : RefusedForAccess (checkedMbz mask c body) := by
  rwa [checkedMbz_ok wf]

theorem checkedCmp_refusedForAccess {mask c : Cntrl} {body : Rel → Outcome} (wf : cmpWellFormed mask c = true)
    (h : ∀ rel, RefusedForAccess (body rel)) : RefusedForAccess (checkedCmp mask c body) := by
  simp only [cmpWellFormed, Bool.and_eq_true, Bool.not_eq_true'] at wf
  obtain ⟨⟨hz, h3⟩, hr⟩ := wf
  obtain ⟨rel, hr⟩ := Option.isSome_iff_exists.1 hr
  rw [checkedCmp_ok hz h3 hr]
  exact h rel

theorem convert_refusedForAccess {fp : FP} {c : Cntrl} (wf : (Cntrl.zeroUnder mbzVV c && c.cvtFunc.isSome) = true)
    (s : State) : RefusedForAccess (convert fp c s) := by
  rw [Bool.and_eq_true] at wf
  obtain ⟨hz, hf⟩ := wf
  obtain ⟨f, hf⟩ := Option.isSome_iff_exists.1 hf
  rw [convert, checkedMbz_ok hz, hf]
  exact registerLoop_refusedForAccess fun _ _ => cvtRes_refusedForAccess _ _ _ _

/-! ### Control register moves -/

theorem writeDest_refusedForAccess (s : State) (d : Dest) (x : Longword) : RefusedForAccess (writeDest s d x) := by
  rcases writeDest_cases s d x with ⟨n, -, h⟩ | ⟨a, -, ⟨-, h⟩ | ⟨-, -, h⟩ | ⟨-, -, h⟩ | ⟨-, -, h⟩⟩ <;> rw [h]
  · exact .next _
  · intro r same
    cases same
    exact ⟨a, .inl rfl⟩
  · exact .fault _
  · intro r same
    cases same
    exact ⟨a, .inr rfl⟩
  · exact .next _

/-- MFVP delivers for the register numbers 0 to 5 and refuses all others (R142 to R149). -/
theorem moveFrom_cases (n : Word) (d : Dest) (s : State) :
    (n.toNat ≤ 5 ∧ ∃ u x, moveFrom n d s = writeDest u d x) ∨
    (5 < n.toNat ∧ moveFrom n d s = .refused .reservedRegnum) := by
  unfold moveFrom syncResult
  iterate 6
    split
    · next h => exact .inl ⟨by rw [h]; decide, _, _, rfl⟩
  next h0 h1 h2 h3 h4 h5 =>
    refine .inr ⟨?_, rfl⟩
    simp only [regnumVCR, regnumVLR, regnumVMRLO, regnumVMRHI, regnumSYNC, regnumMSYNC] at *
    bv_omega

/-- MTVP completes for the register numbers 0 to 3 with a value in range, and is refused for its encoding otherwise (R150 to
R155). -/
theorem moveTo_cases (n : Word) (x : Longword) (s : State) :
    (mtvpWellFormed n x = true ∧ ∃ t, moveTo n x s = .next t) ∨
    (mtvpWellFormed n x = false ∧ ∃ r, moveTo n x s = .refused r ∧ r.ofEncoding = true) := by
  unfold moveTo mtvpWellFormed
  split
  · split
    · next h => exact .inr ⟨decide_eq_false (by omega), _, rfl, rfl⟩
    · next h => exact .inl ⟨decide_eq_true (by omega), _, rfl⟩
  split
  · split
    · next h => exact .inr ⟨decide_eq_false (by omega), _, rfl, rfl⟩
    · next h => exact .inl ⟨decide_eq_true (by omega), _, rfl⟩
  split
  · next h => exact .inl ⟨by rw [h]; rfl, _, rfl⟩
  split
  · next h => exact .inl ⟨by rw [h]; rfl, _, rfl⟩
  next h0 h1 h2 h3 =>
    refine .inr ⟨decide_eq_false ?_, _, rfl, rfl⟩
    simp only [regnumVCR, regnumVLR, regnumVMRLO, regnumVMRHI] at *
    bv_omega

/-! ### Every instruction -/

/-- An instruction has a meaning exactly when the opcode-level instruction it stands for has: the control words that the
assembler builds always have one. -/
theorem lower_wellFormed_eq (i : Instr) : i.lower.wellFormed = i.wellFormed := by
  rw [Bool.eq_iff_iff]
  refine ⟨?_, i.lower_wellFormed⟩
  cases i with
  | vvgtrf | vveqlf | vvlssf | vvleqf | vvneqf | vvgeqf | vsgtrf | vseqlf | vslssf | vsleqf | vsneqf | vsgeqf
  | vvgtrd | vveqld | vvlssd | vvleqd | vvneqd | vvgeqd | vsgtrd | vseqld | vslssd | vsleqd | vsneqd | vsgeqd
  | vvgtrg | vveqlg | vvlssg | vvleqg | vvneqg | vvgeqg | vsgtrg | vseqlg | vslssg | vsleqg | vsneqg | vsgeqg
  | vvgtrl | vveqll | vvlssl | vvleql | vvneql | vvgeql | vsgtrl | vseqll | vslssl | vsleql | vsneql | vsgeql
  | vvcvtlf | vvcvtld | vvcvtlg | vvcvtfl | vvcvtrfl | vvcvtfd | vvcvtfg | vvcvtdl | vvcvtdf | vvcvtrdl | vvcvtgl
  | vvcvtgf | vvcvtrgl | vsmergef | vsmerged | vsmergeg => exact fun _ => rfl
  | _ => exact id

/-- A control register move is refused for its encoding exactly when it is ill-formed (R149, R151, R152, R155, R161). -/
theorem control_refusals {i : Instr} (hk : i.kind = .control) (s : State) :
    (i.wellFormed = false → ∃ r, exec i s = .refused r ∧ r.ofEncoding = true) ∧
    (i.wellFormed = true → RefusedForAccess (exec i s)) := by
  rw [← lower_wellFormed_eq, ← exec_lower]
  rcases control_lower i hk with ⟨n, d, hi⟩ | ⟨n, x, hi⟩ | ⟨n, hi⟩ <;> rw [hi]
  · show (decide (n.toNat ≤ 5) = false → ∃ r, moveFrom n d s = .refused r ∧ _) ∧
      (decide (n.toNat ≤ 5) = true → RefusedForAccess (moveFrom n d s))
    rcases moveFrom_cases n d s with ⟨small, u, x, h⟩ | ⟨large, h⟩ <;> rw [h]
    · exact ⟨fun no => absurd small (of_decide_eq_false no), fun _ => writeDest_refusedForAccess u d x⟩
    · exact ⟨fun _ => ⟨_, rfl, rfl⟩, fun yes => absurd (of_decide_eq_true yes) (by omega)⟩
  · show (mtvpWellFormed n x = false → ∃ r, moveTo n x s = .refused r ∧ _) ∧
      (mtvpWellFormed n x = true → RefusedForAccess (moveTo n x s))
    rcases moveTo_cases n x s with ⟨wf, t, h⟩ | ⟨wf, r, h, enc⟩ <;> rw [wf, h]
    · exact ⟨nofun, fun _ => .next t⟩
    · exact ⟨fun _ => ⟨r, rfl, enc⟩, nofun⟩
  · show (decide (n = 0) = false → ∃ r, synchronize n s = .refused r ∧ _) ∧
      (decide (n = 0) = true → RefusedForAccess (synchronize n s))
    unfold synchronize
    split
    · next h => exact ⟨fun no => absurd h (of_decide_eq_false no), fun _ => .next s⟩
    · next h => exact ⟨fun _ => ⟨_, rfl, rfl⟩, fun yes => absurd (of_decide_eq_true yes) h⟩

/-- A well-formed instruction with a control word is refused only for an access: its loop's elements compute a result or raise,
and loads and stores alone refuse. -/
theorem loop_refusedForAccess {i : Instr} (hk : i.kind ≠ .control) (wf : i.wellFormed = true) (s : State) :
    RefusedForAccess (exec i s) := by
  have low := i.lower_wellFormed wf
  cases i with
  | vvaddf c | vvaddd c | vvaddg c | vvsubf c | vvsubd c | vvsubg c | vvmulf c | vvmuld c | vvmulg c | vvdivf c
  | vvdivd c | vvdivg c | vsaddf c x | vsaddd c x | vsaddg c x | vssubf c x | vssubd c x | vssubg c x | vsmulf c x
  | vsmuld c x | vsmulg c x | vsdivf c x | vsdivd c x | vsdivg c x =>
    exact checkedMbz_refusedForAccess low (registerLoop_refusedForAccess fun _ _ => floatRes_refusedForAccess _ _ _ _)
  | vvaddl c | vvsubl c | vvmull c | vsaddl c x | vssubl c x | vsmull c x =>
    exact checkedMbz_refusedForAccess low (registerLoop_refusedForAccess fun _ _ => intElem_refusedForAccess _ _ _ _)
  | vvbisl c | vvxorl c | vvbicl c | vsbisl c x | vsxorl c x | vsbicl c x | vvsrll c | vvslll c | vssrll c x
  | vsslll c x | vvmerge c | vsmerge c x | vsmergef t x b c | vsmerged t x b c | vsmergeg t x b c =>
    exact checkedMbz_refusedForAccess low (registerLoop_refusedForAccess fun _ _ => nofun)
  | vldl c a x | vldq c a x | vgathl c a | vgathq c a =>
    exact checkedMbz_refusedForAccess low (registerLoop_refusedForAccess fun _ _ => loadElem_refusedForAccess _ _ _ _)
  | vstl c a x | vstq c a x | vscatl c a | vscatq c a =>
    exact checkedMbz_refusedForAccess low (storeLoop_refusedForAccess _ _ _ _ s)
  | iota c x => exact checkedMbz_refusedForAccess low (.next _)
  | vvcvt c | vvcvtlf u q b c | vvcvtld u q b c | vvcvtlg u q b c | vvcvtfl u q b c | vvcvtrfl u q b c
  | vvcvtfd u q b c | vvcvtfg u q b c | vvcvtdl u q b c | vvcvtdf u q b c | vvcvtrdl u q b c | vvcvtgl u q b c
  | vvcvtgf u q b c | vvcvtrgl u q b c => exact convert_refusedForAccess low s
  | mfvp | mtvp | vsync | mfvcr | mfvlr | mfvmrlo | mfvmrhi | synch | msynch | mtvcr | mtvlr | mtvmrlo | mtvmrhi
  | vsynch => exact absurd rfl hk
  | _ => exact checkedCmp_refusedForAccess low fun _ => compareLoop_refusedForAccess _ _ s

end Machine

open Machine

/-- Settles O51: each instruction with a control word tests its must-be-zero fields before all else. -/
theorem mustBeZeroFieldsRefused : Obligations.MustBeZeroFieldsRefused := by
  unfold Obligations.MustBeZeroFieldsRefused
  intro i c s hc hz
  obtain ⟨body, h⟩ := exec_checksMbz hc s
  rw [h, checkedMbz, hz]
  rfl

/-- Settles O52: the tests before an instruction's loop or move are those of well-formedness, and behind them only an access
is refused. -/
theorem refusedExactlyWhenIllFormed : Obligations.RefusedExactlyWhenIllFormed := by
  unfold Obligations.RefusedExactlyWhenIllFormed
  intro i s
  by_cases hk : i.kind = .control
  · exact control_refusals hk s
  · obtain ⟨c, -, out⟩ := exec_loop i s hk
    exact ⟨fun ill => out.refused (by rw [lower_wellFormed_eq, ill]), fun wf => loop_refusedForAccess hk wf s⟩

end Sys2Proof
end

section
/-! IOTA (R130, R131). -/

namespace Sys2Proof

open Machine

/-- Settles O15: behind the must-be-zero test IOTA's answer is its loop's end state. The loop's running sum at element `i` is
`i * stride` in 32-bit arithmetic, which is the low 32 bits of the exact product. -/
theorem iotaCompresses : Obligations.IotaCompresses := by
  unfold Obligations.IotaCompresses
  intro s c stride hz
  obtain ⟨frame, -, count, written, rest⟩ := iota_spec c stride s
  refine ⟨_, checkedMbz_ok hz _, frame, count, fun k i hk => ?_, rest⟩
  have product : BitVec.ofNat 32 (i.val * stride.toNat) = BitVec.ofNat 32 i.val * stride := by
    rw [BitVec.ofNat_mul, BitVec.ofNat_toNat, BitVec.setWidth_eq]
  rw [product]
  exact written k i hk

end Sys2Proof
end

section
/-! MFVP, MTVP and VSYNC: control register moves and synchronisation (R140 to R161). -/

namespace Sys2Proof
namespace Machine

/-! ### Opcodes and mnemonics -/

theorem exec_of_lower_mfvp {i : Instr} {n : Word} {d : Dest} (h : i.lower = .mfvp n d) (s : State) :
    exec i s = moveFrom n d s := by
  rw [← exec_lower, h]
  rfl

theorem exec_of_lower_mtvp {i : Instr} {n : Word} {x : Longword} (h : i.lower = .mtvp n x) (s : State) :
    exec i s = moveTo n x s := by
  rw [← exec_lower, h]
  rfl

theorem exec_of_lower_vsync {i : Instr} {n : Word} (h : i.lower = .vsync n) (s : State) :
    exec i s = synchronize n s := by
  rw [← exec_lower, h]
  rfl

/-! ### The cases of MFVP, MTVP and VSYNC -/

theorem moveFrom_vcr (d : Dest) (s : State) : moveFrom regnumVCR d s = writeDest s d (BitVec.ofNat 32 s.vcr.toNat) := by
  rw [BitVec.ofNat_toNat]
  rfl

theorem moveFrom_vlr (d : Dest) (s : State) : moveFrom regnumVLR d s = writeDest s d (BitVec.ofNat 32 s.vlr.toNat) := by
  rw [BitVec.ofNat_toNat]
  rfl

theorem moveFrom_vmrlo (d : Dest) (s : State) : moveFrom regnumVMRLO d s = writeDest s d (s.vmr.extractLsb' 0 32) := rfl

theorem moveFrom_vmrhi (d : Dest) (s : State) : moveFrom regnumVMRHI d s = writeDest s d (s.vmr.extractLsb' 32 32) := rfl

theorem moveFrom_sync (d : Dest) (s : State) : moveFrom regnumSYNC d s = syncResult d s := rfl

theorem moveFrom_msync (d : Dest) (s : State) : moveFrom regnumMSYNC d s = syncResult d s := rfl

/-- The register numbers that MFVP gives a meaning (R141). -/
theorem mfvp_regnums {n : Word} (h : n.toNat ≤ 5) :
    n = regnumVCR ∨ n = regnumVLR ∨ n = regnumVMRLO ∨ n = regnumVMRHI ∨ n = regnumSYNC ∨ n = regnumMSYNC := by
  simp only [regnumVCR, regnumVLR, regnumVMRLO, regnumVMRHI, regnumSYNC, regnumMSYNC]
  bv_omega

/-- MFVP delivers a longword for every register number that is not Reserved; before it delivers, the draw counter alone may
have changed (R142 to R148). -/
theorem moveFrom_eq_writeDest {n : Word} (h : n.toNat ≤ 5) (d : Dest) (s : State) :
    ∃ k x, moveFrom n d s = writeDest { s with draws := k } d x := by
  rcases mfvp_regnums h with rfl | rfl | rfl | rfl | rfl | rfl
  · exact ⟨s.draws, _, moveFrom_vcr d s⟩
  · exact ⟨s.draws, _, moveFrom_vlr d s⟩
  · exact ⟨s.draws, _, moveFrom_vmrlo d s⟩
  · exact ⟨s.draws, _, moveFrom_vmrhi d s⟩
  · exact ⟨s.draws + 1, _, moveFrom_sync d s⟩
  · exact ⟨s.draws + 1, _, moveFrom_msync d s⟩

theorem moveFrom_reserved {n : Word} (h : 5 < n.toNat) (d : Dest) (s : State) :
    moveFrom n d s = .refused .reservedRegnum := by
  rcases moveFrom_cases n d s with ⟨small, -⟩ | ⟨-, refused⟩
  · omega
  · exact refused

theorem moveTo_vcr {x : Longword} (h : x.toNat ≤ 127) (s : State) :
    moveTo regnumVCR x s = .next { s with vcr := x.extractLsb' 0 7 } := by
  rw [moveTo, if_pos rfl, if_neg (Nat.not_lt.2 h)]

theorem moveTo_vcr_outOfRange {x : Longword} (h : ¬ x.toNat ≤ 127) (s : State) :
    moveTo regnumVCR x s = .refused .vcrOutOfRange := by
  rw [moveTo, if_pos rfl, if_pos (Nat.lt_of_not_le h)]

theorem moveTo_vlr {x : Longword} (h : x.toNat ≤ NELEM) (s : State) :
    moveTo regnumVLR x s = .next { s with vlr := x.extractLsb' 0 7 } := by
  rw [moveTo, if_neg (by decide), if_pos rfl, if_neg (Nat.not_lt.2 h)]

theorem moveTo_vlr_outOfRange {x : Longword} (h : ¬ x.toNat ≤ NELEM) (s : State) :
    moveTo regnumVLR x s = .refused .vlrOutOfRange := by
  rw [moveTo, if_neg (by decide), if_pos rfl, if_pos (Nat.lt_of_not_le h)]

theorem moveTo_vmrlo (x : Longword) (s : State) :
    moveTo regnumVMRLO x s = .next { s with vmr := s.vmr.extractLsb' 32 32 ++ x } := rfl

theorem moveTo_vmrhi (x : Longword) (s : State) :
    moveTo regnumVMRHI x s = .next { s with vmr := x ++ s.vmr.extractLsb' 0 32 } := rfl

theorem moveTo_reserved {n : Word} (h : 3 < n.toNat) (x : Longword) (s : State) :
    moveTo n x s = .refused .reservedRegnum := by
  have other : ∀ {m : Word}, m.toNat ≤ 3 → n ≠ m := by
    rintro m small rfl
    omega
  rw [moveTo, if_neg (other (by decide)), if_neg (other (by decide)), if_neg (other (by decide)),
    if_neg (other (by decide))]

theorem synchronize_zero (s : State) : synchronize 0 s = .next s := rfl

theorem synchronize_reserved {n : Word} (h : 0 < n.toNat) (s : State) :
    synchronize n s = .refused .reservedRegnum := by
  refine if_neg ?_
  rintro rfl
  exact absurd h (by decide)

/-! ### Delivering a result -/

theorem Deliverable.withDraws {s : State} {d : Dest} (h : Deliverable s d) (k : Nat) :
    Deliverable { s with draws := k } d := by
  cases d <;> exact h

/-- What is delivered after a draw is delivered, with the draw, from the state before it. -/
theorem Delivered.of_withDraws {s t : State} {k : Nat} {x : Longword} {d : Dest}
    (h : Delivered true { s with draws := k } t x d) : Delivered true s t x d := by
  cases d with
  | reg n =>
    obtain ⟨value, frame⟩ := h
    exact ⟨value, (Unchanged.withDraws rfl s k).trans frame⟩
  | mem a =>
    obtain ⟨frame, value, others⟩ := h
    exact ⟨(Unchanged.withDraws rfl s k).trans frame, value, others⟩

/-- A result is delivered wherever it can be, and drawing nothing (R142; log 38). -/
theorem writeDest_delivers (drawn : Bool) {s : State} {d : Dest} (wf : Memory.wf s.mem = true) (h : Deliverable s d)
    (x : Longword) : ∃ t, writeDest s d x = .next t ∧ Delivered drawn s t x d ∧ t.draws = s.draws := by
  cases d with
  | reg n =>
    have value : ∀ m : Fin 15, m.castSucc = n → (s.setGeneral n x).reg m = x := fun m hm => by
      rw [State.reg_setGeneral, if_pos hm]
    exact ⟨s.setGeneral n x, rfl, ⟨value, Unchanged.setGeneral drawn s n x⟩, State.setGeneral_draws s n x⟩
  | mem a =>
    obtain ⟨allowed, noText⟩ := h
    have others : ∀ b, ¬ Covers a 4 b → (s.writeL a x).byte b = s.byte b := fun b hb =>
      State.byte_writeL_off s wf a b x fun k hk e => hb ⟨k, hk, e⟩
    refine ⟨s.writeL a x, ?_, ⟨Unchanged.writeL drawn s a x, State.byte_writeL_at s wf a x, others⟩,
      State.writeL_draws s a x⟩
    simp [writeDest, allowed, noText]

/-- A memory destination that the access check does not allow gives the byte level's own fault (R426; log 37). -/
theorem writeDest_denied {s : State} {a : Address} (outside : inDeviceSpace s a 4 = false)
    (denied : accessCheck s a 4 .write ≠ .ok) (x : Longword) :
    writeDest s (.mem a) x = .fault (.scalarOperand a (accessCheck s a 4 .write)) := by
  cases answer : accessCheck s a 4 .write with
  | ok => exact absurd answer denied
  | accessControlViolation | translationNotValid | modify => simp [writeDest, scalarAccess, outside, answer]

/-- MFVP, under its opcode and a mnemonic, delivers what its register number names. -/
theorem mfvp_delivers {i : Instr} {n : Word} {x : Longword} {s : State} {d : Dest} (hi : i.lower = .mfvp n d)
    (hn : moveFrom n d s = writeDest s d x) (wf : Memory.wf s.mem = true) (h : Deliverable s d) :
    ∃ t, exec (.mfvp n d) s = .next t ∧ exec i s = .next t ∧ Delivered false s t x d := by
  obtain ⟨t, done, delivered, -⟩ := writeDest_delivers false wf h x
  exact ⟨t, hn.trans done, (exec_of_lower_mfvp hi s).trans (hn.trans done), delivered⟩

/-- SYNC and MSYNC deliver the next drawn value and draw once (R147, R148; log 14, 16). -/
theorem syncResult_delivers {s : State} {d : Dest} (wf : Memory.wf s.mem = true) (h : Deliverable s d) :
    ∃ t, syncResult d s = .next t ∧ Delivered true s t (Config.draw32 s.draws) d ∧ t.draws = s.draws + 1 := by
  obtain ⟨t, done, delivered, draws⟩ := writeDest_delivers true (s := { s with draws := s.draws + 1 }) wf
    (h.withDraws (s.draws + 1)) (Config.draw32 s.draws)
  exact ⟨t, done, delivered.of_withDraws, draws⟩

/-! ### The values that MTVP writes -/

theorem vmr_eq_append_halves (s : State) : s.vmr = s.vmr.extractLsb' 32 32 ++ s.vmr.extractLsb' 0 32 :=
  (BitVec.extractLsb'_append_extractLsb' (w := 32) (len := 32)).symm

/-- The mask bit of an element, from the half of VMR that holds it (R28). -/
theorem maskBit_of_halves {s : State} {hi lo : Longword} (h : s.vmr = hi ++ lo) (i : ElemIx) :
    s.maskBit i = if i.val < 32 then lo.getLsbD i.val else hi.getLsbD (i.val - 32) := by
  rw [State.maskBit, h, BitVec.getLsbD_append]

/-- A value in range keeps its number in a 7-bit register. -/
theorem toNat_extractLsb'_seven {x : Longword} (h : x.toNat ≤ 127) : (x.extractLsb' 0 7).toNat = x.toNat := by
  rw [BitVec.extractLsb'_toNat, Nat.shiftRight_zero]
  omega

end Machine

open Machine

/-- Settles O8: each register number names the longword that MFVP delivers. -/
theorem moveFromRegisters : Obligations.MoveFromRegisters := by
  unfold Obligations.MoveFromRegisters
  intro s dst wf h
  exact ⟨mfvp_delivers rfl (moveFrom_vcr dst s) wf h, mfvp_delivers rfl (moveFrom_vlr dst s) wf h,
    mfvp_delivers rfl (moveFrom_vmrlo dst s) wf h, mfvp_delivers rfl (moveFrom_vmrhi dst s) wf h⟩

/-- Settles O9: both functions are one delivery of the next drawn value. -/
theorem synchDeliversDrawnValue : Obligations.SynchDeliversDrawnValue := by
  unfold Obligations.SynchDeliversDrawnValue
  intro s dst wf h
  obtain ⟨t, done, delivered, draws⟩ := syncResult_delivers wf h
  have sync : moveFrom regnumSYNC dst s = .next t := (moveFrom_sync dst s).trans done
  have msync : moveFrom regnumMSYNC dst s = .next t := (moveFrom_msync dst s).trans done
  exact ⟨t, sync, (exec_of_lower_mfvp (i := .synch dst) rfl s).trans sync, msync,
    (exec_of_lower_mfvp (i := .msynch dst) rfl s).trans msync, delivered, draws⟩

/-- Settles O10: the delivery that every register number ends in asks the access check, whose answer does not depend on the
draw counter. -/
theorem moveFromDeniedDestination : Obligations.MoveFromDeniedDestination := by
  unfold Obligations.MoveFromDeniedDestination
  intro s n a small outside denied
  obtain ⟨k, x, delivery⟩ := moveFrom_eq_writeDest small (.mem a) s
  exact delivery.trans (writeDest_denied (s := { s with draws := k }) outside denied x)

/-- Settles O11: the new VMR is the operand appended to the half that stays, and the old VMR is its two halves. -/
theorem moveToMaskHalves : Obligations.MoveToMaskHalves := by
  unfold Obligations.MoveToMaskHalves
  intro s src
  have old := maskBit_of_halves (vmr_eq_append_halves s)
  have mtvmrlo := exec_of_lower_mtvp (i := .mtvmrlo src) rfl s
  have mtvmrhi := exec_of_lower_mtvp (i := .mtvmrhi src) rfl s
  constructor
  · refine ⟨_, moveTo_vmrlo src s, mtvmrlo.trans (moveTo_vmrlo src s), Unchanged.withVmr rfl s _,
      BitVec.extractLsb'_append_eq_right, BitVec.extractLsb'_append_eq_left, fun i => ?_⟩
    rw [maskBit_of_halves rfl, old]
    split <;> rfl
  · refine ⟨_, moveTo_vmrhi src s, mtvmrhi.trans (moveTo_vmrhi src s), Unchanged.withVmr rfl s _,
      BitVec.extractLsb'_append_eq_left, BitVec.extractLsb'_append_eq_right, fun i => ?_⟩
    rw [maskBit_of_halves rfl, old]
    split <;> rfl

/-- Settles O12: a value in range fits the 7-bit register, and one above is refused. -/
theorem moveToCountAndLength : Obligations.MoveToCountAndLength := by
  unfold Obligations.MoveToCountAndLength
  intro s src
  have mtvcr := exec_of_lower_mtvp (i := .mtvcr src) rfl s
  have mtvlr := exec_of_lower_mtvp (i := .mtvlr src) rfl s
  constructor
  · split
    · next small =>
      have done := moveTo_vcr small s
      exact ⟨_, done, mtvcr.trans done, toNat_extractLsb'_seven small, Unchanged.withVcr rfl s _⟩
    · next large =>
      have refused := moveTo_vcr_outOfRange large s
      exact ⟨refused, mtvcr.trans refused⟩
  · split
    · next small =>
      have done := moveTo_vlr small s
      exact ⟨_, done, mtvlr.trans done, toNat_extractLsb'_seven (by omega), Unchanged.withVlr rfl s _⟩
    · next large =>
      have refused := moveTo_vlr_outOfRange large s
      exact ⟨refused, mtvlr.trans refused⟩

/-- Settles O13: no case of MFVP, MTVP or VSYNC has such a register number. -/
theorem reservedRegnumRefused : Obligations.ReservedRegnumRefused := by
  unfold Obligations.ReservedRegnumRefused
  intro s n
  exact ⟨fun h dst => moveFrom_reserved h dst s, fun h src => moveTo_reserved h src s, fun h => synchronize_reserved h s⟩

/-- Settles O14: register number 0 is VSYNC's one case, and VSYNCH stands for it. -/
theorem vsyncChangesNothing : Obligations.VsyncChangesNothing := by
  unfold Obligations.VsyncChangesNothing
  intro s
  exact ⟨synchronize_zero s, (exec_of_lower_vsync (i := .vsynch) rfl s).trans (synchronize_zero s)⟩

end Sys2Proof
end

section
/-! Floating arithmetic: every answer of `FP.op` is either stored as a datum or raised as its exception (R171), so the loop
completes or raises at the first element that stores nothing. -/

namespace Sys2Proof
namespace Machine

/-! ### The instructions by operation and type -/

/-- A vector-vector instruction whose must-be-zero fields are zero is its element loop (R170, R171). -/
theorem exec_floatVV {c : Cntrl} (hz : Cntrl.zeroUnder mbzVV c = true) (op : FOp) (ty : FType) (s : State) :
    exec (floatVV op ty c) s =
      registerLoop (enabled c s) c.vc (fun _ e => floatRes vaxFP ty c.exc
        (vaxFP.op op ty (elemDatum (e c.va) ty.dtype) (elemDatum (e c.vb) ty.dtype))) s := by
  have family : exec (floatVV op ty c) s = vvFloat vaxFP op ty c s := by
    cases op <;> cases ty <;> rfl
  rw [family, vvFloat, checkedMbz_ok hz]

/-- A vector-scalar instruction whose must-be-zero fields are zero is its element loop, the scalar on the left (R170,
R171). -/
theorem exec_floatVS {c : Cntrl} (hz : Cntrl.zeroUnder mbzVS c = true) (op : FOp) (ty : FType)
    (x : BitVec ty.dtype.width) (s : State) :
    exec (floatVS op ty c x) s =
      registerLoop (enabled c s) c.vc (fun _ e => floatRes vaxFP ty c.exc
        (vaxFP.op op ty x (elemDatum (e c.vb) ty.dtype))) s := by
  have family : exec (floatVS op ty c x) s = vsFloat vaxFP op ty c x s := by
    cases op <;> cases ty <;> rfl
  rw [family, vsFloat, checkedMbz_ok hz]

/-! ### What an answer does to its element -/

/-- An answer that stops no element is stored as its datum (R171, R406). -/
theorem floatRes_stored (fp : FP) (ty : FType) {exc : Bool} {answer : FPResult ty.dtype.width}
    (h : StoresFloat exc answer) : floatRes fp ty exc answer = .datum ty.dtype (storedFloat fp ty answer) := by
  cases answer with
  | value v => rfl
  | underflow =>
    cases h
    rfl
  | overflow | reservedOperand | divideByZero => exact h.elim

/-- An answer that stores nothing raises its exception (R171, R404 to R408). -/
theorem floatRes_raised (fp : FP) (ty : FType) {exc : Bool} {answer : FPResult ty.dtype.width} {e : Exc}
    (stops : ¬ StoresFloat exc answer) (he : floatExc answer = some e) : floatRes fp ty exc answer = .raise e := by
  cases answer with
  | value v => exact absurd trivial stops
  | underflow =>
    have on : exc = true := by simpa [StoresFloat] using stops
    cases he
    exact if_pos on
  | overflow | reservedOperand | divideByZero =>
    cases he
    rfl

/-! ### Loops over answers -/

/-- A register loop raises at the first processed element without a property that lets an element store its result, if that
element raises (R414). -/
theorem registerLoop_raises_first {s : State} {c : Cntrl} {f : ElemIx → (VReg → Element) → ElemRes}
    {p : ElemIx → Prop} {k : ElemIx} {e : Exc} (first : FirstProcessed c s (fun i => ¬ p i) k)
    (stores : ∀ i, p i → (f i fun n => s.elem n i).Stores) (raises : (f k fun n => s.elem n k) = .raise e) :
    ∃ left, registerLoop (enabled c s) c.vc f s = .fault (.raised e k left) := by
  obtain ⟨processed, -, below⟩ := first
  obtain ⟨hk, en⟩ := (processed_iff c s k).1 processed
  exact registerLoop_raises hk en raises fun i hi lt en =>
    stores i (not_not.1 (below i lt ((processed_iff c s i).2 ⟨hi, en⟩)))

/-- A loop over answers of `FP.op` that stop no processed element completes with every stored datum. -/
theorem floatLoop_computed {fp : FP} {s : State} {c : Cntrl} {ty : FType}
    {answer : (VReg → Element) → FPResult ty.dtype.width}
    (h : ∀ i, Processed c s i → StoresFloat c.exc (answer fun n => s.elem n i)) :
    ∃ t, registerLoop (enabled c s) c.vc (fun _ e => floatRes fp ty c.exc (answer e)) s = .next t ∧
      Computed c ty.dtype (fun i => storedFloat fp ty (answer fun n => s.elem n i)) s t :=
  registerLoop_computed fun i hp => floatRes_stored fp ty (h i hp)

/-- A loop over answers of `FP.op` raises the exception of the first answer that stores nothing. -/
theorem floatLoop_raises {fp : FP} {s : State} {c : Cntrl} {ty : FType}
    {answer : (VReg → Element) → FPResult ty.dtype.width} {k : ElemIx} {e : Exc}
    (first : FirstProcessed c s (fun i => ¬ StoresFloat c.exc (answer fun n => s.elem n i)) k)
    (he : floatExc (answer fun n => s.elem n k) = some e) :
    ∃ left, registerLoop (enabled c s) c.vc (fun _ e => floatRes fp ty c.exc (answer e)) s =
      .fault (.raised e k left) := by
  have ⟨_, stops, _⟩ := first
  refine registerLoop_raises_first first (fun i stored => ?_) (floatRes_raised fp ty stops he)
  rw [floatRes_stored fp ty stored]
  exact ElemRes.stores_datum ..

end Machine

open Machine

/-- Settles O20: the instruction is its element loop, which stores every answer that stops no element. -/
theorem floatVectorVector : Obligations.FloatVectorVector := by
  unfold Obligations.FloatVectorVector
  intro s op ty c hz answer h
  rw [exec_floatVV hz]
  exact floatLoop_computed
    (answer := fun e => vaxFP.op op ty (elemDatum (e c.va) ty.dtype) (elemDatum (e c.vb) ty.dtype)) h

/-- Settles O21: as for the vector-vector instructions, with the scalar on the left. -/
theorem floatVectorScalar : Obligations.FloatVectorScalar := by
  unfold Obligations.FloatVectorScalar
  intro s op ty c x hz answer h
  rw [exec_floatVS hz]
  exact floatLoop_computed (answer := fun e => vaxFP.op op ty x (elemDatum (e c.vb) ty.dtype)) h

/-- Settles O22: both forms are element loops, and the first answer that stores nothing raises its exception there. -/
theorem floatExceptionRaised : Obligations.FloatExceptionRaised := by
  unfold Obligations.FloatExceptionRaised
  intro s op ty c k e
  constructor
  · intro hz answer first he
    rw [exec_floatVV hz]
    exact floatLoop_raises
      (answer := fun e => vaxFP.op op ty (elemDatum (e c.va) ty.dtype) (elemDatum (e c.vb) ty.dtype)) first he
  · intro x hz answer first he
    rw [exec_floatVS hz]
    exact floatLoop_raises (answer := fun e => vaxFP.op op ty x (elemDatum (e c.vb) ty.dtype)) first he

end Sys2Proof
end

section
/-! Integer arithmetic: results and their overflow as exact integers (R221), and the two forms as element loops (R228). -/

namespace Sys2Proof
namespace Machine

/-! ### Exact results -/

/-- The stored result is the exact one modulo 2^32 (R221). -/
theorem IOp.result_eq_ofInt_exact (op : IOp) (x y : Longword) : op.result x y = BitVec.ofInt 32 (op.exact x y) := by
  cases op with
  | add => simp only [IOp.result, IOp.exact, BitVec.ofInt_add, BitVec.ofInt_toInt]
  | sub => simp only [IOp.result, IOp.exact, Int.sub_eq_add_neg, BitVec.ofInt_add, BitVec.ofInt_neg, BitVec.ofInt_toInt,
      BitVec.sub_eq_add_neg]
  | mul => simp only [IOp.result, IOp.exact, BitVec.ofInt_mul, BitVec.ofInt_toInt]

/-- An integer is within -2^31 to 2^31-1 when its low 32 bits, read as signed, give it back (R221). -/
theorem outsideLongword_eq_false_iff (n : Int) : outsideLongword n = false ↔ n.bmod (2 ^ 32) = n := by
  have range : outsideLongword n = false ↔ -2 ^ 31 ≤ n ∧ n ≤ 2 ^ 31 - 1 := by simp [outsideLongword]
  rw [range, Int.bmod_eq_iff (by decide)]
  omega

theorem IOp.overflows_eq_false_iff (op : IOp) (x y : Longword) :
    op.overflows x y = false ↔ (op.result x y).toInt = op.exact x y := by
  rw [IOp.overflows, outsideLongword_eq_false_iff, IOp.result_eq_ofInt_exact, BitVec.toInt_ofInt]

/-! ### Products -/

/-- The product of two longwords, read as signed, fits in 64 bits. -/
theorem toInt_ofInt_product (x y : Longword) : (BitVec.ofInt 64 (x.toInt * y.toInt)).toInt = x.toInt * y.toInt := by
  have low : -2 ^ (32 * 2 - 2) ≤ x.toInt * y.toInt := BitVec.le_toInt_mul_toInt
  have high : x.toInt * y.toInt ≤ 2 ^ (32 * 2 - 2) := BitVec.toInt_mul_toInt_le
  exact BitVec.toInt_ofInt_eq_self (by decide) (by omega) (by omega)

/-- Bits 63:31 of a quadword are all equal when it is the sign extension of its low longword. -/
theorem signBits_equal_iff (p : Quadword) :
    (∀ n, 31 ≤ n → n < 64 → p.getLsbD n = p.getLsbD 63) ↔ (p.signExtend 32).signExtend 64 = p := by
  have bit (n : Nat) (hn : n < 64) :
      ((p.signExtend 32).signExtend 64).getLsbD n = if n < 32 then p.getLsbD n else p.getLsbD 31 := by
    simp only [BitVec.getLsbD_signExtend, BitVec.msb_eq_getLsbD_last, hn, decide_true, Bool.true_and]
    split <;> simp [*]
  constructor
  · intro equal
    refine BitVec.eq_of_getLsbD_eq fun n hn => ?_
    rw [bit n hn]
    split
    · rfl
    · rw [equal 31 (by omega) (by omega), equal n (by omega) hn]
  · intro extended
    have upper (n : Nat) (h31 : 31 ≤ n) (hn : n < 64) : p.getLsbD n = p.getLsbD 31 := by
      rcases Nat.eq_or_lt_of_le h31 with rfl | h32
      · rfl
      · calc p.getLsbD n = ((p.signExtend 32).signExtend 64).getLsbD n := by rw [extended]
          _ = p.getLsbD 31 := by rw [bit n hn, if_neg (by omega)]
    intro n h31 hn
    rw [upper n h31 hn, upper 63 (by decide) (by decide)]

/-- A quadword is within the range of a longword when its bits 63:31 are all equal. -/
theorem outsideLongword_toInt_iff (p : Quadword) :
    outsideLongword p.toInt = false ↔ ∀ n, 31 ≤ n → n < 64 → p.getLsbD n = p.getLsbD 63 := by
  rw [signBits_equal_iff, ← BitVec.toInt_inj, BitVec.toInt_signExtend_of_le (by decide), BitVec.toInt_signExtend]
  exact outsideLongword_eq_false_iff p.toInt

/-! ### The instructions by operation -/

/-- A vector-vector instruction whose must-be-zero fields are zero is its element loop (R228). -/
theorem exec_intVV {c : Cntrl} (hz : Cntrl.zeroUnder mbzVV c = true) (op : IOp) (s : State) :
    exec (intVV op c) s =
      registerLoop (enabled c s) c.vc (fun _ e => intElem op c.exc (e c.va).lo (e c.vb).lo) s := by
  have family : exec (intVV op c) s = vvInt op c s := by cases op <;> rfl
  rw [family, vvInt, checkedMbz_ok hz]

/-- A vector-scalar instruction whose must-be-zero fields are zero is its element loop, the scalar on the left (R220,
R228). -/
theorem exec_intVS {c : Cntrl} (hz : Cntrl.zeroUnder mbzVS c = true) (op : IOp) (x : Longword) (s : State) :
    exec (intVS op c x) s =
      registerLoop (enabled c s) c.vc (fun _ e => intElem op c.exc x (e c.vb).lo) s := by
  have family : exec (intVS op c x) s = vsInt op c x s := by cases op <;> rfl
  rw [family, vsInt, checkedMbz_ok hz]

/-! ### What a result does to its element -/

/-- Without an enabled overflow the low 32 bits of the exact result are stored (R221, R228). -/
theorem intElem_stored {op : IOp} {exc : Bool} {x y : Longword} (h : exc = true → op.overflows x y = false) :
    intElem op exc x y = .datum .l (BitVec.ofInt 32 (op.exact x y)) := by
  have none : (exc && op.overflows x y) = false := by
    cases exc with
    | false => rfl
    | true => exact h rfl
  rw [intElem, none, IOp.result_eq_ofInt_exact]
  rfl

/-- An enabled overflow raises integer overflow (R228, R409). -/
theorem intElem_raised {op : IOp} {x y : Longword} (h : op.overflows x y = true) :
    intElem op true x y = .raise .integerOverflow := by
  rw [intElem, h]
  rfl

/-! ### Loops over results -/

/-- A loop without an enabled overflow in a processed element completes with every stored result. -/
theorem intLoop_computed {op : IOp} {s : State} {c : Cntrl} {x y : (VReg → Element) → Longword}
    (h : c.exc = true → ∀ i, Processed c s i → op.overflows (x fun n => s.elem n i) (y fun n => s.elem n i) = false) :
    ∃ t, registerLoop (enabled c s) c.vc (fun _ e => intElem op c.exc (x e) (y e)) s = .next t ∧
      Computed c .l (fun i => BitVec.ofInt 32 (op.exact (x fun n => s.elem n i) (y fun n => s.elem n i))) s t :=
  registerLoop_computed fun i hp => intElem_stored fun exc => h exc i hp

/-- With EXC = 1 a loop raises integer overflow at the first processed element that overflows. -/
theorem intLoop_raises {op : IOp} {s : State} {c : Cntrl} {x y : (VReg → Element) → Longword} {k : ElemIx}
    (exc : c.exc = true)
    (first : FirstProcessed c s (fun i => op.overflows (x fun n => s.elem n i) (y fun n => s.elem n i) = true) k) :
    ∃ left, registerLoop (enabled c s) c.vc (fun _ e => intElem op c.exc (x e) (y e)) s =
      .fault (.raised .integerOverflow k left) := by
  have ⟨_, overflows, _⟩ := first
  simp only [← Bool.not_eq_false] at first
  refine registerLoop_raises_first first (fun i fits => ?_) (exc ▸ intElem_raised overflows)
  rw [intElem_stored fun _ => fits]
  exact ElemRes.stores_datum ..

end Machine

open Machine

/-- Settles O19: an overflow is an exact result that its low 32 bits do not give back, and a product is given back by them
when it is the sign extension of its low longword. -/
theorem integerOverflowIsSigned : Obligations.IntegerOverflowIsSigned := by
  unfold Obligations.IntegerOverflowIsSigned
  intro x y
  refine ⟨fun op => ⟨op.result_eq_ofInt_exact x y, ?_⟩, ?_⟩
  · rw [← Bool.not_eq_false, op.overflows_eq_false_iff]
  · rw [← outsideLongword_toInt_iff, toInt_ofInt_product]
    rfl

/-- Settles O16: the instruction is its element loop, which stores every result without an enabled overflow. -/
theorem integerVectorVector : Obligations.IntegerVectorVector := by
  unfold Obligations.IntegerVectorVector
  intro s op c hz h
  rw [exec_intVV hz]
  exact intLoop_computed (x := fun e => (e c.va).lo) (y := fun e => (e c.vb).lo) h

/-- Settles O17: as for the vector-vector instructions, with the scalar on the left. -/
theorem integerVectorScalar : Obligations.IntegerVectorScalar := by
  unfold Obligations.IntegerVectorScalar
  intro s op c x hz h
  rw [exec_intVS hz]
  exact intLoop_computed (x := fun _ => x) (y := fun e => (e c.vb).lo) h

/-- Settles O18: both forms are element loops, and the first result that overflows raises integer overflow there. -/
theorem integerOverflowRaised : Obligations.IntegerOverflowRaised := by
  unfold Obligations.IntegerOverflowRaised
  intro s op c k exc
  constructor
  · intro hz first
    rw [exec_intVV hz]
    exact intLoop_raises (x := fun e => (e c.va).lo) (y := fun e => (e c.vb).lo) exc first
  · intro x hz first
    rw [exec_intVS hz]
    exact intLoop_raises (x := fun _ => x) (y := fun e => (e c.vb).lo) exc first

end Sys2Proof
end

section
/-! Bits 63:32 of the elements do not influence the integer arithmetic, the shifts and the integer compares: their loops,
run from two states that differ in those bits alone, stay so related element by element (R220, R260, R293). -/

namespace Sys2Proof
namespace Machine

/-! ### States that differ in upper halves -/

/-- Two states agree in what the longword instructions read: the low half of every element, VLR and VMR. -/
structure SameLow (s t : State) : Prop where
  lo : ∀ n k, (s.elem n k).lo = (t.elem n k).lo
  vlr : s.vlr = t.vlr
  vmr : s.vmr = t.vmr

theorem SameLow.elements {s t : State} (h : SameLow s t) : s.elements = t.elements := by
  rw [State.elements, State.elements, h.vlr]

theorem SameLow.enabled {s t : State} (h : SameLow s t) (c : Cntrl) : enabled c s = enabled c t := by
  funext i
  rw [Machine.enabled, Machine.enabled, State.maskBit, State.maskBit, h.vmr]

/-- Elements of the same low half written keep two states so related. -/
theorem SameLow.setElem {s t : State} (h : SameLow s t) (n : VReg) (i : ElemIx) {x y : Element} (hxy : x.lo = y.lo) :
    SameLow (s.setElem n i x) (t.setElem n i y) where
  lo m j := by
    rw [State.elem_setElem, State.elem_setElem]
    split
    · exact hxy
    · exact h.lo m j
  vlr := h.vlr
  vmr := h.vmr

/-- The drawn upper half of a result need not be the same in both states (R24). -/
theorem SameLow.setLow {s t : State} (h : SameLow s t) (n : VReg) (i : ElemIx) (x : Longword) :
    SameLow (s.setLow n i x) (t.setLow n i x) :=
  have ⟨lo, vlr, vmr⟩ := h.setElem n i (x := ⟨Config.draw32 s.draws, x⟩) (y := ⟨Config.draw32 t.draws, x⟩) rfl
  ⟨lo, vlr, vmr⟩

theorem SameLow.setMaskBit {s t : State} (h : SameLow s t) (i : ElemIx) (b : Bool) :
    SameLow (s.setMaskBit i b) (t.setMaskBit i b) where
  lo := h.lo
  vlr := h.vlr
  vmr := by rw [State.setMaskBit_vmr, State.setMaskBit_vmr, h.vmr]

/-! ### Runs -/

/-- A run that completes from one state completes from every other that differs in upper halves alone, and the two final
states differ in upper halves alone. -/
def IgnoresUpper (run : State → Outcome) : Prop :=
  ∀ s t s', SameLow s t → run s = .next s' → ∃ t', run t = .next t' ∧ SameLow s' t'

/-- A value computed from the elements' low halves alone. -/
def OfLow {α : Type} (f : (VReg → Element) → α) : Prop :=
  ∀ e e' : VReg → Element, (∀ n, (e n).lo = (e' n).lo) → f e = f e'

theorem ofLow_binary {α : Type} (f : Longword → Longword → α) (a b : VReg) :
    OfLow fun e => f (e a).lo (e b).lo := by
  intro e e' h
  simp only [h]

theorem ofLow_unary {α : Type} (f : Longword → α) (b : VReg) : OfLow fun e => f (e b).lo := by
  intro e e' h
  simp only [h]

theorem IgnoresUpper.refused (r : Refusal) : IgnoresUpper fun _ => .refused r := nofun

theorem IgnoresUpper.checkedMbz {run : State → Outcome} (h : IgnoresUpper run) (mask c : Cntrl) :
    IgnoresUpper fun s => checkedMbz mask c (run s) := by
  unfold Machine.checkedMbz
  split
  · exact h
  · exact .refused _

theorem IgnoresUpper.checkedCmp {run : Rel → State → Outcome} (h : ∀ rel, IgnoresUpper (run rel)) (mask c : Cntrl) :
    IgnoresUpper fun s => checkedCmp mask c fun rel => run rel s := by
  refine IgnoresUpper.checkedMbz (run := fun s => if c.cmpBit3 then _ else _) ?_ mask c
  split
  · exact .refused _
  · split
    · exact .refused _
    · exact h _

/-! ### Loops -/

theorem IgnoresUpper.forElements {body : ElemIx → State → Outcome} (h : ∀ i, IgnoresUpper (body i)) (is : List ElemIx) :
    IgnoresUpper (forElements body is) := by
  induction is with
  | nil =>
    intro s t s' same done
    cases done
    exact ⟨t, rfl, same⟩
  | cons i is ih =>
    intro s t s' same done
    simp only [Machine.forElements] at done ⊢
    split at done
    · next u hu =>
      obtain ⟨v, hv, same⟩ := h i s t u same hu
      rw [hv]
      exact ih u v s' same done
    · cases done
    · cases done

theorem registerElem_ignoresUpper (sel : ElemIx → Bool) (vc : VReg) {f : (VReg → Element) → ElemRes} (hf : OfLow f)
    (i : ElemIx) : IgnoresUpper (registerElem sel vc (fun _ => f) i) := by
  intro s t s' same done
  cases hs : sel i with
  | false =>
    rw [registerElem_skip hs] at done ⊢
    cases done
    exact ⟨t, rfl, same⟩
  | true =>
    have agree : (f fun n => s.elem n i) = f fun n => t.elem n i := hf _ _ fun n => same.lo n i
    simp only [registerElem, hs, if_true, agree] at done ⊢
    cases hres : f fun n => t.elem n i with
    | low x =>
      rw [hres] at done
      cases done
      exact ⟨_, rfl, same.setLow vc i x⟩
    | whole e =>
      rw [hres] at done
      cases done
      exact ⟨_, rfl, same.setElem vc i rfl⟩
    | raise | refuse =>
      rw [hres] at done
      cases done

theorem compareElem_ignoresUpper (sel : ElemIx → Bool) {f : (VReg → Element) → CmpRes} (hf : OfLow f) (i : ElemIx) :
    IgnoresUpper (compareElem sel f i) := by
  intro s t s' same done
  cases hs : sel i with
  | false =>
    simp only [compareElem, hs, Bool.false_eq_true, if_false] at done ⊢
    cases done
    exact ⟨t, rfl, same⟩
  | true =>
    have agree : (f fun n => s.elem n i) = f fun n => t.elem n i := hf _ _ fun n => same.lo n i
    simp only [compareElem, hs, if_true, agree] at done ⊢
    cases hres : f fun n => t.elem n i with
    | bit b =>
      rw [hres] at done
      cases done
      exact ⟨_, rfl, same.setMaskBit i b⟩
    | raise =>
      rw [hres] at done
      cases done

/-- Both states have the same elements to process and the same mask, so their loops process the same elements (R26, R30). -/
theorem registerLoop_ignoresUpper (c : Cntrl) {f : (VReg → Element) → ElemRes} (hf : OfLow f) :
    IgnoresUpper fun s => registerLoop (enabled c s) c.vc (fun _ => f) s := by
  intro s t s' same done
  simp only [registerLoop, same.elements, same.enabled] at done ⊢
  exact IgnoresUpper.forElements (registerElem_ignoresUpper _ c.vc hf) _ s t s' same done

theorem compareLoop_ignoresUpper (c : Cntrl) {f : (VReg → Element) → CmpRes} (hf : OfLow f) :
    IgnoresUpper fun s => compareLoop (enabled c s) f s := by
  intro s t s' same done
  simp only [compareLoop, same.elements, same.enabled] at done ⊢
  exact IgnoresUpper.forElements (compareElem_ignoresUpper _ hf) _ s t s' same done

/-! ### The families -/

theorem vvInt_ignoresUpper (op : IOp) (c : Cntrl) : IgnoresUpper (vvInt op c) :=
  (registerLoop_ignoresUpper c (ofLow_binary (intElem op c.exc) c.va c.vb)).checkedMbz mbzVV c

theorem vsInt_ignoresUpper (op : IOp) (c : Cntrl) (x : Longword) : IgnoresUpper (vsInt op c x) :=
  (registerLoop_ignoresUpper c (ofLow_unary (intElem op c.exc x) c.vb)).checkedMbz mbzVS c

theorem vvShift_ignoresUpper (op : ShiftOp) (c : Cntrl) : IgnoresUpper (vvShift op c) :=
  (registerLoop_ignoresUpper c (ofLow_binary (fun n x => ElemRes.low (op.result n x)) c.va c.vb)).checkedMbz mbzVVNoExc c

theorem vsShift_ignoresUpper (op : ShiftOp) (c : Cntrl) (cnt : Longword) : IgnoresUpper (vsShift op c cnt) :=
  (registerLoop_ignoresUpper c (ofLow_unary (fun x => ElemRes.low (op.result cnt x)) c.vb)).checkedMbz mbzVSNoExc c

theorem vvCmpInt_ignoresUpper (c : Cntrl) : IgnoresUpper (vvCmpInt c) :=
  .checkedCmp (fun rel => compareLoop_ignoresUpper c (ofLow_binary (intCmp rel) c.va c.vb)) mbzVVNoExc c

theorem vsCmpInt_ignoresUpper (c : Cntrl) (x : Longword) : IgnoresUpper (vsCmpInt c x) :=
  .checkedCmp (fun rel => compareLoop_ignoresUpper c (ofLow_unary (intCmp rel x) c.vb)) mbzVSNoExc c

/-- The families that compute on longwords: integer arithmetic, shifts and integer compares (R220, R260, R290). -/
def LongwordKind (k : Kind) : Prop :=
  k = .intArith true ∨ k = .intArith false ∨ k = .shift true ∨ k = .shift false ∨ k = .intCompare true ∨
    k = .intCompare false

theorem exec_ignoresUpper (i : Instr) (hk : LongwordKind i.kind) : IgnoresUpper (exec i) := by
  cases i with
  | vvaddl c | vvsubl c | vvmull c => exact vvInt_ignoresUpper _ c
  | vsaddl c x | vssubl c x | vsmull c x => exact vsInt_ignoresUpper _ c x
  | vvsrll c | vvslll c => exact vvShift_ignoresUpper _ c
  | vssrll c cnt | vsslll c cnt => exact vsShift_ignoresUpper _ c cnt
  | vvcmpl c => exact vvCmpInt_ignoresUpper c
  | vscmpl c x => exact vsCmpInt_ignoresUpper c x
  | vvgtrl q va vb | vveqll q va vb | vvlssl q va vb | vvleql q va vb | vvneql q va vb | vvgeql q va vb =>
    exact vvCmpInt_ignoresUpper _
  | vsgtrl q x vb | vseqll q x vb | vslssl q x vb | vsleql q x vb | vsneql q x vb | vsgeql q x vb =>
    exact vsCmpInt_ignoresUpper _ x
  | _ => simp [LongwordKind, Instr.kind] at hk

end Machine

open Machine

/-- Settles O54: each of the instructions is a loop whose elements compute on low halves alone, so two states that agree in
them, in VLR and in VMR go through the loop side by side. -/
theorem upperHalvesIgnored : Obligations.UpperHalvesIgnored := by
  unfold Obligations.UpperHalvesIgnored
  intro i s t s' hk lo vlr vmr done
  obtain ⟨t', ht', same⟩ := exec_ignoresUpper i hk s t s' ⟨lo, vlr, vmr⟩ done
  exact ⟨t', ht', same.lo, same.vmr⟩

end Sys2Proof
end

section
/-! The logical instructions and the shifts: the value of one element, and the four families as element loops whose
processed elements all hold a datum (R247, R260 to R262). -/

namespace Sys2Proof

/-- A quadword written as two halves is the element of these halves (R48). -/
@[simp] theorem Element.ofQ_append (hi lo : Longword) : Element.ofQ (hi ++ lo) = ⟨hi, lo⟩ := by
  rw [Element.ofQ, BitVec.extractLsb'_append_eq_left, BitVec.extractLsb'_append_eq_right]

namespace Machine

/-! ### Logical functions -/

/-- A logical element is a quadword datum: the high half of `Vb[i]` above the function's value (R247). -/
theorem logicalElem_eq_datum (op : LOp) (x : Longword) (y : Element) :
    logicalElem op x y = .datum .d (y.hi ++ op.result x y.lo) := by
  rw [logicalElem, ElemRes.datum, Element.ofQ_append]

/-- The vector-vector logical instructions complete for every state (R240, R247). -/
theorem vvLogical_completes {c : Cntrl} (hz : Cntrl.zeroUnder mbzVVNoExc c = true) (op : LOp) (s : State) :
    ∃ t, vvLogical op c s = .next t ∧
      Computed c .d (fun i => (s.elem c.vb i).hi ++ op.result (s.elem c.va i).lo (s.elem c.vb i).lo) s t := by
  rw [vvLogical, checkedMbz_ok hz]
  exact registerLoop_computed fun i _ => logicalElem_eq_datum op (s.elem c.va i).lo (s.elem c.vb i)

/-- The vector-scalar logical instructions complete for every state, the scalar as first operand (R240, R247). -/
theorem vsLogical_completes {c : Cntrl} (hz : Cntrl.zeroUnder mbzVSNoExc c = true) (op : LOp) (x : Longword) (s : State) :
    ∃ t, vsLogical op c x s = .next t ∧
      Computed c .d (fun i => (s.elem c.vb i).hi ++ op.result x (s.elem c.vb i).lo) s t := by
  rw [vsLogical, checkedMbz_ok hz]
  exact registerLoop_computed fun i _ => logicalElem_eq_datum op x (s.elem c.vb i)

/-! ### Shifts -/

/-- The value of a shift as a natural number, before its low 32 bits are taken (R262; log 30). -/
def ShiftOp.exact : ShiftOp → Longword → Longword → Nat
  | .right, count, x => x.toNat / 2 ^ (count.toNat % 32)
  | .left, count, x => x.toNat * 2 ^ (count.toNat % 32)

/-- The five low bits of a count are the count modulo 32 (R260). -/
theorem toNat_shiftCount (count : Longword) : (count.extractLsb' 0 5).toNat = count.toNat % 32 := by
  rw [BitVec.extractLsb'_toNat, Nat.shiftRight_zero]

/-- The stored result of a shift is its exact value modulo 2^32 (R260, R262). -/
theorem ShiftOp.result_eq_ofNat_exact (op : ShiftOp) (count x : Longword) :
    op.result count x = BitVec.ofNat 32 (op.exact count x) := by
  apply BitVec.eq_of_toNat_eq
  cases op with
  | right =>
    have fits : x.toNat / 2 ^ (count.toNat % 32) < 2 ^ 32 := (Nat.div_le_self ..).trans_lt x.isLt
    rw [ShiftOp.result, ShiftOp.exact, toNat_shiftCount, BitVec.toNat_ushiftRight, Nat.shiftRight_eq_div_pow,
      BitVec.toNat_ofNat, Nat.mod_eq_of_lt fits]
  | left =>
    rw [ShiftOp.result, ShiftOp.exact, toNat_shiftCount, BitVec.toNat_shiftLeft, Nat.shiftLeft_eq, BitVec.toNat_ofNat]

/-- A shifted element is the longword datum of the exact value (R261, R262). -/
theorem shiftElem_eq_datum (op : ShiftOp) (count x : Longword) :
    ElemRes.low (op.result count x) = .datum .l (BitVec.ofNat 32 (op.exact count x)) :=
  congrArg ElemRes.low (op.result_eq_ofNat_exact count x)

/-- The vector-vector shifts complete for every state, the count from Va (R260, R261). -/
theorem vvShift_completes {c : Cntrl} (hz : Cntrl.zeroUnder mbzVVNoExc c = true) (op : ShiftOp) (s : State) :
    ∃ t, vvShift op c s = .next t ∧
      Computed c .l (fun i => BitVec.ofNat 32 (op.exact (s.elem c.va i).lo (s.elem c.vb i).lo)) s t := by
  rw [vvShift, checkedMbz_ok hz]
  exact registerLoop_computed fun i _ => shiftElem_eq_datum op (s.elem c.va i).lo (s.elem c.vb i).lo

/-- The vector-scalar shifts complete for every state, one count for all elements (R260, R261). -/
theorem vsShift_completes {c : Cntrl} (hz : Cntrl.zeroUnder mbzVSNoExc c = true) (op : ShiftOp) (count : Longword)
    (s : State) :
    ∃ t, vsShift op c count s = .next t ∧
      Computed c .l (fun i => BitVec.ofNat 32 (op.exact count (s.elem c.vb i).lo)) s t := by
  rw [vsShift, checkedMbz_ok hz]
  exact registerLoop_computed fun i _ => shiftElem_eq_datum op count (s.elem c.vb i).lo

end Machine

open Machine

/-- Settles O26: the six instructions are the three functions in the two forms, whose loops store a quadword datum in every
processed element. -/
theorem logicalFunctions : Obligations.LogicalFunctions := by
  unfold Obligations.LogicalFunctions
  intro s c
  constructor
  · intro hz
    exact ⟨vvLogical_completes hz .bis s, vvLogical_completes hz .xor s, vvLogical_completes hz .bic s⟩
  · intro hz x
    exact ⟨vsLogical_completes hz .bis x s, vsLogical_completes hz .xor x s, vsLogical_completes hz .bic x s⟩

/-- Settles O27: the four instructions are the two directions in the two forms, whose loops store the exact value modulo 2^32
in every processed element. -/
theorem logicalShifts : Obligations.LogicalShifts := by
  unfold Obligations.LogicalShifts
  intro s c
  constructor
  · intro hz
    exact ⟨vvShift_completes hz .right s, vvShift_completes hz .left s⟩
  · intro hz count
    exact ⟨vsShift_completes hz .right count s, vsShift_completes hz .left count s⟩

end Sys2Proof
end

section
/-! The compares that stop: a refused control word (R280), and the first reserved operand of a floating compare (R272, R281);
and the relations by their codes and outcomes (R271). -/

namespace Sys2Proof
namespace Machine

/-! ### Refused control words -/

theorem checkedCmp_bit3 {mask c : Cntrl} (hz : Cntrl.zeroUnder mask c = true) (h3 : c.cmpBit3 = true)
    (body : Rel → Outcome) : checkedCmp mask c body = .refused .vcmpCntrl3 := by
  rw [checkedCmp, checkedMbz_ok hz, if_pos h3]

theorem checkedCmp_reservedFunc {mask c : Cntrl} (hz : Cntrl.zeroUnder mask c = true) (h3 : c.cmpBit3 = false)
    (hr : c.rel = none) (body : Rel → Outcome) : checkedCmp mask c body = .refused .reservedCmpFunc := by
  rw [checkedCmp, checkedMbz_ok hz, h3, hr]
  rfl

/-- The function codes 3 and 7 name no relation (R89). -/
theorem rel_eq_none {c : Cntrl} (h : c.extractLsb' 0 3 = 3 ∨ c.extractLsb' 0 3 = 7) : c.rel = none := by
  rcases h with h | h <;> rw [Cntrl.rel, h] <;> rfl

/-- The two refusals behind the must-be-zero test, whatever the compare's body (R280; log 8, 9). -/
theorem checkedCmp_refusals {mask c : Cntrl} (hz : Cntrl.zeroUnder mask c = true) (body : Rel → Outcome) :
    (c.getLsbD 3 = true → checkedCmp mask c body = .refused .vcmpCntrl3) ∧
    (c.getLsbD 3 = false → (c.extractLsb' 0 3 = 3 ∨ c.extractLsb' 0 3 = 7) →
      checkedCmp mask c body = .refused .reservedCmpFunc) :=
  ⟨fun h3 => checkedCmp_bit3 hz h3 body, fun h3 code => checkedCmp_reservedFunc hz h3 (rel_eq_none code) body⟩

/-! ### Reserved operands -/

/-- Two integers always stand in an order (R293). -/
theorem intOrder_ne_reservedOperand (a b : Int) : intOrder a b ≠ .reservedOperand := by
  unfold intOrder
  repeat' split
  all_goals exact nofun

/-- Two floating data stand in no order when one of them is a reserved operand (R281). -/
theorem orderOf_reserved_iff (t : FType) (x y : BitVec t.dtype.width) :
    orderOf t.dtype x y = .reservedOperand ↔ ReservedBits t x ∨ ReservedBits t y := by
  cases t <;> exact fCompare_reserved_iff _ x y

theorem floatCmp_raised {t : FType} {x y : BitVec t.dtype.width} (rel : Rel) (h : vaxFP.cmp t x y = .reservedOperand) :
    floatCmp vaxFP t rel x y = .raise .floatingReservedOperand := by
  rw [floatCmp, h]

/-- A compare of two data that stand in no order raises floating reserved operand (R281, R407). -/
theorem typedCmp_raised {ty : DType} {x y : BitVec ty.width} (rel : Rel) (h : orderOf ty x y = .reservedOperand) :
    typedCmp ty rel x y = .raise .floatingReservedOperand := by
  cases ty with
  | l => exact absurd h (intOrder_ne_reservedOperand _ _)
  | f | d | g => exact floatCmp_raised rel h

/-- A compare loop raises floating reserved operand at the first processed element whose data stand in no order (R281,
R414). -/
theorem compareLoop_raises_reserved {s : State} {c : Cntrl} {ty : DType} {x y : (VReg → Element) → BitVec ty.width}
    {k : ElemIx} (rel : Rel)
    (first : FirstProcessed c s (fun i => orderOf ty (x fun n => s.elem n i) (y fun n => s.elem n i) = .reservedOperand) k) :
    ∃ left, compareLoop (enabled c s) (fun e => typedCmp ty rel (x e) (y e)) s =
      .fault (.raised .floatingReservedOperand k left) := by
  obtain ⟨processed, reserved, below⟩ := first
  obtain ⟨hk, en⟩ := (processed_iff c s k).1 processed
  refine compareLoop_raises hk en (typedCmp_raised rel reserved) fun i hi lt en => ?_
  rw [typedCmp_bit rel (below i lt ((processed_iff c s i).2 ⟨hi, en⟩))]
  trivial

end Machine

open Machine

/-- Settles O28: behind the tests of the control word a compare is its element loop, in which every processed element has an
outcome. -/
theorem compareOpcodes : Obligations.CompareOpcodes := by
  unfold Obligations.CompareOpcodes
  intro s ty c rel h3 hr
  constructor
  · intro hz x y h
    exact compareVV_completes hz h3 hr h
  · intro x hz y h
    exact compareVS_completes hz h3 hr h

/-- Settles O31: both forms are element loops, which stop at the first pair of data that stand in no order; two integers
always stand in one. -/
theorem compareReservedOperandRaised : Obligations.CompareReservedOperandRaised := by
  unfold Obligations.CompareReservedOperandRaised
  refine ⟨fun s ty c rel k h3 hr => ⟨fun hz first => ?_, fun x hz first => ?_⟩,
    fun x y => intOrder_ne_reservedOperand x.toInt y.toInt⟩
  · simp only [← orderOf_reserved_iff] at first
    rw [exec_compareVV, checkedCmp_ok hz h3 hr]
    exact compareLoop_raises_reserved (x := fun e => elemDatum (e c.va) ty.dtype)
      (y := fun e => elemDatum (e c.vb) ty.dtype) rel first
  · simp only [← orderOf_reserved_iff] at first
    rw [exec_compareVS, checkedCmp_ok hz h3 hr]
    exact compareLoop_raises_reserved (x := fun _ => x) (y := fun e => elemDatum (e c.vb) ty.dtype) rel first

/-- Settles O32: every compare makes the same two tests of its function code before its elements. -/
theorem compareCodesRefused : Obligations.CompareCodesRefused := by
  unfold Obligations.CompareCodesRefused
  intro s ty c x
  rw [exec_compareVV, exec_compareVS]
  exact ⟨fun hz => checkedCmp_refusals hz _, fun hz => checkedCmp_refusals hz _⟩

/-- Settles O33: each code is a row of the table, and each relation is a test for one outcome or for either of two. -/
theorem relationTable : Obligations.RelationTable := by
  unfold Obligations.RelationTable
  refine ⟨rfl, rfl, rfl, rfl, rfl, rfl, rfl, rfl, ?_⟩
  simp only [relHolds, beq_iff_eq, Bool.or_eq_true, implies_true, and_self]

end Sys2Proof
end

section
/-! The memory instructions: loads and gathers as register loops over the loaded data, stores and scatters as store loops, and
the access at which each stops (R300 to R310, R414). -/

namespace Sys2Proof
namespace Machine

/-! ### The first access that may not be made -/

/-- The elements of a loop up to the first processed one without a property. -/
theorem FirstProcessed.in_loop {c : Cntrl} {s : State} {p : ElemIx → Prop} {k : ElemIx}
    (first : FirstProcessed c s (fun i => ¬ p i) k) :
    k ∈ s.elements ∧ enabled c s k = true ∧ ∀ i ∈ s.elements, i < k → enabled c s i = true → p i := by
  obtain ⟨processed, -, below⟩ := first
  obtain ⟨hk, en⟩ := (processed_iff c s k).1 processed
  exact ⟨hk, en, fun i hi lt en => not_not.1 (below i lt ((processed_iff c s i).2 ⟨hi, en⟩))⟩

/-- An instruction stops at element `k` as the tests of its access answer: with their exception, or refused (R309, R414). -/
def StopsAs (k : ElemIx) (out : Outcome) : Access → Prop
  | .ok => False
  | .raise e => ∃ left, out = .fault (.raised e k left)
  | .refuse r => out = .refused r

/-! ### One element's load -/

theorem loadElem_raised {s : State} {w : MemWidth} {mi : Bool} {a : Address} {e : Exc}
    (h : checkLoad s a w.bytes mi = .raise e) : loadElem s w mi a = .raise e := by
  simp only [loadElem, h]

theorem loadElem_refused {s : State} {w : MemWidth} {mi : Bool} {a : Address} {r : Refusal}
    (h : checkLoad s a w.bytes mi = .refuse r) : loadElem s w mi a = .refuse r := by
  simp only [loadElem, h]

theorem loadElem_stores {s : State} {w : MemWidth} {mi : Bool} {a : Address} (h : Loadable w mi s a) :
    (loadElem s w mi a).Stores := by
  simp only [loadElem, (checkLoad_ok s w a mi).2 h]
  cases w <;> trivial

/-- An element that may be loaded holds the datum at its address: a longword in the low half, a quadword whole (R301 to
R304). -/
theorem loadElem_holds_iff {s t : State} {w : MemWidth} {mi : Bool} {a : Address} {vc : VReg} {i : ElemIx}
    (h : Loadable w mi s a) : (loadElem s w mi a).Holds s t vc i ↔ Loaded w s t vc i a := by
  simp only [loadElem, (checkLoad_ok s w a mi).2 h]
  cases w <;> rfl

/-! ### Loads and gathers -/

/-- From `s` to `t` the processed elements of register `c.vc` are loaded from their addresses, every other element of it is
unchanged, and so is everything else (R25, R52). -/
def LoadedAll (w : MemWidth) (c : Cntrl) (addr : ElemIx → Address) (s t : State) : Prop :=
  Unchanged { vreg := some c.vc, draws := true } s t ∧
    ∀ i, (Processed c s i → Loaded w s t c.vc i (addr i)) ∧ (¬ Processed c s i → t.elem c.vc i = s.elem c.vc i)

section
variable {s : State} {c mask : Cntrl} {w : MemWidth} {addr : ElemIx → (VReg → Element) → Address}

/-- A load whose processed elements may all be loaded completes. Its addresses are those of the registers before it, an index
register that is also the destination among them (R301, R302). -/
theorem load_completes (hz : Cntrl.zeroUnder mask c = true)
    (h : ∀ i, Processed c s i → Loadable w c.mi s (addr i fun n => s.elem n i)) :
    ∃ t, checkedMbz mask c (registerLoop (enabled c s) c.vc (fun i e => loadElem s w c.mi (addr i e)) s) = .next t ∧
      LoadedAll w c (fun i => addr i fun n => s.elem n i) s t := by
  rw [checkedMbz_ok hz]
  obtain ⟨t, ht, done⟩ := registerLoop_completes (vc := c.vc) (f := fun i e => loadElem s w c.mi (addr i e))
    fun i hi en => loadElem_stores (h i ((processed_iff c s i).2 ⟨hi, en⟩))
  refine ⟨t, ht, done.frame, fun i => ⟨fun hp => ?_, fun hp => done.other i fun both => hp ((processed_iff c s i).2 both)⟩⟩
  obtain ⟨hi, en⟩ := (processed_iff c s i).1 hp
  exact (loadElem_holds_iff (h i hp)).1 (done.result i hi en)

/-- A load stops at the first processed element that may not be loaded. -/
theorem load_stops {k : ElemIx} (hz : Cntrl.zeroUnder mask c = true)
    (first : FirstProcessed c s (fun i => ¬ Loadable w c.mi s (addr i fun n => s.elem n i)) k) :
    StopsAs k (checkedMbz mask c (registerLoop (enabled c s) c.vc (fun i e => loadElem s w c.mi (addr i e)) s))
      (checkLoad s (addr k fun n => s.elem n k) w.bytes c.mi) := by
  rw [checkedMbz_ok hz]
  have ⟨_, denied, _⟩ := first
  obtain ⟨hk, en, below⟩ := first.in_loop
  cases hc : checkLoad s (addr k fun n => s.elem n k) w.bytes c.mi with
  | ok => exact denied ((checkLoad_ok ..).1 hc)
  | raise e => exact registerLoop_raises hk en (loadElem_raised hc) fun i hi lt en => loadElem_stores (below i hi lt en)
  | refuse r => exact registerLoop_refuses hk en (loadElem_refused hc) fun i hi lt en => loadElem_stores (below i hi lt en)

end

/-! ### Stores and scatters -/

section
variable {s : State} {c mask : Cntrl} {w : MemWidth} {addr : ElemIx → Address}

/-- A store whose processed elements may all be stored completes, and leaves what each byte's highest-numbered element
stored (R57). -/
theorem store_completes (wf : Memory.wf s.mem = true) (hz : Cntrl.zeroUnder mask c = true)
    (h : ∀ i, Processed c s i → Storable w s (addr i)) :
    ∃ t, checkedMbz mask c (storeLoop (enabled c s) w addr c.vc s) = .next t ∧ Unchanged { mem := true } s t ∧
      Stored w c addr s t := by
  rw [checkedMbz_ok hz]
  obtain ⟨t, ht, done⟩ := storeLoop_completes (vc := c.vc) fun i hi en =>
    (checkStore_ok s w (addr i)).2 (h i ((processed_iff c s i).2 ⟨hi, en⟩))
  refine ⟨t, ht, done.frame, fun b uncovered => ?_, fun i k hp hk last => ?_⟩
  · exact done.off wf b fun i hi en => uncovered i ((processed_iff c s i).2 ⟨hi, en⟩)
  · obtain ⟨hi, en⟩ := (processed_iff c s i).1 hp
    exact done.at_last wf i hi en k hk fun j hj lt en => last j lt ((processed_iff c s j).2 ⟨hj, en⟩)

/-- A store stops at the first processed element that may not be stored. -/
theorem store_stops {k : ElemIx} (hz : Cntrl.zeroUnder mask c = true)
    (first : FirstProcessed c s (fun i => ¬ Storable w s (addr i)) k) :
    StopsAs k (checkedMbz mask c (storeLoop (enabled c s) w addr c.vc s)) (checkStore s (addr k) w.bytes) := by
  rw [checkedMbz_ok hz]
  have ⟨_, denied, _⟩ := first
  obtain ⟨hk, en, below⟩ := first.in_loop
  cases hc : checkStore s (addr k) w.bytes with
  | ok => exact denied ((checkStore_ok ..).1 hc)
  | raise e => exact storeLoop_raises hk en hc fun i hi lt en => (checkStore_ok ..).2 (below i hi lt en)
  | refuse r => exact storeLoop_refuses hk en hc fun i hi lt en => (checkStore_ok ..).2 (below i hi lt en)

end

end Machine

open Machine

/-- Settles O41: both widths are loads from addresses that no register has a part in. -/
theorem stridedLoads : Obligations.StridedLoads := by
  unfold Obligations.StridedLoads
  intro s c base stride hz
  exact ⟨load_completes (addr := fun i _ => stridedAddr base stride i) hz,
    load_completes (addr := fun i _ => stridedAddr base stride i) hz⟩

/-- Settles O42: both widths are loads from addresses given by the index register as it was before the loop. -/
theorem gathers : Obligations.Gathers := by
  unfold Obligations.Gathers
  intro s c base hz
  exact ⟨load_completes (addr := fun _ e => indexedAddr base (e c.vb)) hz,
    load_completes (addr := fun _ e => indexedAddr base (e c.vb)) hz⟩

/-- Settles O43: both widths are store loops, whose later elements overwrite earlier ones. -/
theorem stridedStores : Obligations.StridedStores := by
  unfold Obligations.StridedStores
  intro s c base stride wf hz
  exact ⟨store_completes wf hz, store_completes wf hz⟩

/-- Settles O44: as for the strided stores, with addresses given by the index register. -/
theorem scatters : Obligations.Scatters := by
  unfold Obligations.Scatters
  intro s c base wf hz
  exact ⟨store_completes wf hz, store_completes wf hz⟩

/-- Settles O45: all four instructions are loads, and the tests before the first load that may not be made answer in
their order. -/
theorem loadStops : Obligations.LoadStops := by
  unfold Obligations.LoadStops
  intro s c base stride w indexed k addr i hz first
  have stop : StopsAs k (exec i s) (checkLoad s (addr k) w.bytes c.mi) := by
    have loop : exec i s = checkedMbz i.kind.mbz c (registerLoop (enabled c s) c.vc (fun j e => loadElem s w c.mi
        (if indexed then indexedAddr base (e c.vb) else stridedAddr base stride j)) s) := by
      cases w <;> cases indexed <;> rfl
    rw [loop]
    exact load_stops hz first
  obtain ⟨-, denied, -⟩ := first
  split
  · next unaligned => rwa [checkLoad, if_pos unaligned] at stop
  · next aligned =>
    rw [checkLoad, if_neg aligned] at stop
    cases answer : accessCheck s (addr k) w.bytes (.read c.mi) with
    | accessControlViolation | translationNotValid => rwa [answer] at stop
    | modify => exact accessCheck_read _ _ _ _ answer
    | ok =>
      have device : inDeviceSpace s (addr k) w.bytes = true := by
        by_contra outside
        exact denied ⟨not_not.1 aligned, answer, Bool.eq_false_of_not_eq_true outside⟩
      rwa [answer, device] at stop

/-- Settles O46: all four instructions are stores, and the tests before the first store that may not be made answer in
their order. -/
theorem storeStops : Obligations.StoreStops := by
  unfold Obligations.StoreStops
  intro s c base stride w indexed k addr i hz first
  have stop : StopsAs k (exec i s) (checkStore s (addr k) w.bytes) := by
    have loop : exec i s = checkedMbz i.kind.mbz c (storeLoop (enabled c s) w addr c.vc s) := by
      cases w <;> cases indexed <;> rfl
    rw [loop]
    exact store_stops hz first
  obtain ⟨-, denied, -⟩ := first
  split
  · next unaligned => rwa [checkStore, if_pos unaligned] at stop
  · next aligned =>
    rw [checkStore, if_neg aligned] at stop
    cases answer : accessCheck s (addr k) w.bytes .write with
    | accessControlViolation | translationNotValid | modify => rwa [answer] at stop
    | ok =>
      cases device : inDeviceSpace s (addr k) w.bytes with
      | true => rwa [answer, device] at stop
      | false =>
        have text : overlapsText s (addr k) w.bytes = true := by
          by_contra apart
          exact denied ⟨not_not.1 aligned, answer, device, Bool.eq_false_of_not_eq_true apart⟩
        rwa [answer, device, text] at stop

end Sys2Proof
end

section
/-! VMERGE: both forms are the same element loop over all elements below VLR, and it completes for every state (R340 to
R343). -/

namespace Sys2Proof
namespace Machine

theorem selected_iff (c : Cntrl) (s : State) (i : ElemIx) : selected c s i = true ↔ s.maskBit i = c.mtf := beq_iff_eq

/-- From `s` to `t` each element of register `vc` below VLR is the first source's where its mask bit equals `mtf` and that
of `vb` elsewhere, the sources as they were in `s`, and everything else is unchanged (R340). -/
def Merged (mtf : Bool) (vb vc : VReg) (first : ElemIx → Element) (s t : State) : Prop :=
  Unchanged { vreg := some vc, draws := true } s t ∧
    ∀ i, t.elem vc i =
      if i.val < s.vlr.toNat then (if s.maskBit i = mtf then first i else s.elem vb i) else s.elem vc i

/-- The element loop of a merge completes for every state, a source register that is also the destination included
(R22, R340). -/
theorem mergeLoop_completes (c : Cntrl) (first : (VReg → Element) → Element) (s : State) :
    ∃ t, registerLoop (fun _ => true) c.vc
        (fun i e => .whole (if selected c s i then first e else e c.vb)) s = .next t ∧
      Merged c.mtf c.vb c.vc (fun i => first fun n => s.elem n i) s t := by
  obtain ⟨t, ht, done⟩ := registerLoop_completes (sel := fun _ => true) (vc := c.vc)
    (f := fun i e => .whole (if selected c s i then first e else e c.vb)) (s := s) fun _ _ _ => trivial
  refine ⟨t, ht, done.frame, fun i => ?_⟩
  split
  · next below =>
    have whole := done.result i ((s.mem_elements i).2 below) rfl
    simp only [ElemRes.Holds, selected_iff] at whole
    exact whole
  · next above => exact done.other i fun both => above ((s.mem_elements i).1 both.1)

/-- VVMERGE completes for every state (R341). -/
theorem vvMerge_completes {c : Cntrl} (hz : Cntrl.zeroUnder mbzVVMerge c = true) (s : State) :
    ∃ t, vvMerge c s = .next t ∧ Merged c.mtf c.vb c.vc (s.elem c.va) s t := by
  rw [vvMerge, checkedMbz_ok hz]
  exact mergeLoop_completes c (fun e => e c.va) s

/-- VSMERGE completes for every state, the scalar as first source (R342). -/
theorem vsMerge_completes {c : Cntrl} (hz : Cntrl.zeroUnder mbzVSMerge c = true) (x : Quadword) (s : State) :
    ∃ t, vsMerge c x s = .next t ∧ Merged c.mtf c.vb c.vc (fun _ => .ofQ x) s t := by
  rw [vsMerge, checkedMbz_ok hz]
  exact mergeLoop_completes c (fun _ => .ofQ x) s

/-- VSMERGE with the control word of a spelling merges by the operands the word was built from (R113, R343). -/
theorem vsMerge_spelling_completes (mtf : Bool) (x : Quadword) (vb vc : VReg) (s : State) :
    ∃ t, vsMerge (Cntrl.vsMerge mtf vb vc) x s = .next t ∧ Merged mtf vb vc (fun _ => .ofQ x) s t := by
  have merged := vsMerge_completes (Laws.vs_merge_wellFormed mtf vb vc) x s
  have fields : (Cntrl.vsMerge mtf vb vc).mtf = mtf ∧ (Cntrl.vsMerge mtf vb vc).vb = vb ∧
      (Cntrl.vsMerge mtf vb vc).vc = vc := ⟨Laws.make_mtf .., Laws.make_vb .., Laws.make_vc ..⟩
  obtain ⟨hmtf, hvb, hvc⟩ := fields
  rwa [hmtf, hvb, hvc] at merged

end Machine

open Machine

/-- Settles O34: both forms are one element loop whose every result is a whole element, so it never stops; the three
spellings run VSMERGE with the same built control word. -/
theorem mergeSelects : Obligations.MergeSelects := by
  unfold Obligations.MergeSelects
  intro s c
  refine ⟨fun hz => vvMerge_completes hz s, fun hz x => vsMerge_completes hz x s, fun mtf x vb vc => ?_⟩
  obtain ⟨t, done, merged⟩ := vsMerge_spelling_completes mtf x vb vc s
  exact ⟨t, done, done, done, merged⟩

end Sys2Proof
end

section
/-! The conversions that stop: a Reserved function code (R365), and the first answer that stores nothing (R351, R414); and the
conversions that round nothing away, because a datum of the destination's format has the value already (R366). -/

namespace Sys2Proof
namespace Machine

/-! ### VVCVT behind its tests -/

/-- With a function code that is not Reserved VVCVT is its element loop (R351). -/
theorem exec_vvcvt {c : Cntrl} {f : CvtFunc} (hz : Cntrl.zeroUnder mbzVV c = true) (hf : c.cvtFunc = some f) (s : State) :
    exec (.vvcvt c) s = convertLoop vaxFP f c s := by
  show convert vaxFP c s = _
  rw [convert, checkedMbz_ok hz, hf]

theorem exec_vvcvt_reserved {c : Cntrl} (hz : Cntrl.zeroUnder mbzVV c = true) (hf : c.cvtFunc = none) (s : State) :
    exec (.vvcvt c) s = .refused .reservedCvtFunc := by
  show convert vaxFP c s = _
  rw [convert, checkedMbz_ok hz, hf]

/-- The function codes 0000, 1011 and 1110 name no conversion (R90, R365). -/
theorem cvtFunc_eq_none {c : Cntrl} (h : c.extractLsb' 8 4 = 0#4 ∨ c.extractLsb' 8 4 = 11#4 ∨ c.extractLsb' 8 4 = 14#4) :
    c.cvtFunc = none := by
  rcases h with h | h | h <;> rw [Cntrl.cvtFunc, h] <;> rfl

/-- An answer that stores nothing raises its exception (R351, R405 to R407, R409). -/
theorem cvtRes_raised (fp : FP) (ty : DType) {exc : Bool} {answer : CvtResult ty.width} {e : Exc}
    (stops : ¬ StoresCvt exc answer) (he : cvtExc answer = some e) : cvtRes fp ty exc answer = .raise e := by
  cases answer with
  | value v => exact absurd trivial stops
  | underflow | integerOverflow v =>
    have on : exc = true := by simpa [StoresCvt] using stops
    cases he
    exact if_pos on
  | overflow | reservedOperand =>
    cases he
    rfl

/-! ### The data of a format -/

theorem fExp_le (t : FType) (x : BitVec t.dtype.width) : fExp t x ≤ fMaxExp t := by
  cases t <;> exact Nat.le_of_lt_succ (BitVec.isLt _)

/-- A datum with exponent field 0 that is no reserved operand is a zero, whatever its fraction. -/
theorem valueOf_of_exp_zero {t : FType} {x : BitVec t.dtype.width} (h : ¬ ReservedBits t x) (he : fExp t x = 0) :
    valueOf t x = 0 := by
  have sign : fSign t x = false := Bool.eq_false_of_not_eq_true fun hs => h ((reservedBits_iff t x).2 ⟨hs, he⟩)
  simp [valueOf, fValue, he, sign]

/-- An integer of a type's precision is a significand that needs no rounding. -/
theorem significand_natCast {t : FType} {n : Nat} (low : 2 ^ fFracBits t ≤ n) (high : n < 2 ^ (fFracBits t + 1)) :
    Significand t n n where
  low := by exact_mod_cast low
  high := by rw [pow_succ] at high; exact_mod_cast high
  rounded := by
    rw [Int.floor_natCast_add, show ⌊(1 / 2 : ℚ)⌋ = 0 by norm_num, add_zero]

/-- A datum lies below the overflow bound of its format and, if it is not 0, above the underflow bound (R42 to R45). -/
theorem abs_valueOf_bounds {t : FType} {w : BitVec t.dtype.width} (h : ¬ ReservedBits t w) :
    |valueOf t w| < overflowBound t ∧ (valueOf t w ≠ 0 → underflowBound t ≤ |valueOf t w|) := by
  by_cases he : fExp t w = 0
  · rw [valueOf_of_exp_zero h he, abs_zero]
    exact ⟨overflowBound_pos t, absurd rfl⟩
  · have frac := fFrac_lt t w
    have small : 2 ^ fFracBits t + fFrac t w < 2 ^ (fFracBits t + 1) := by rw [pow_succ]; omega
    have sig := significand_natCast (Nat.le_add_right _ _) small
    have noCarry : carryOf t (2 ^ fFracBits t + fFrac t w) = 0 := if_neg small.ne
    have magnitude : |valueOf t w| =
        ((2 ^ fFracBits t + fFrac t w : ℕ) : ℚ) * 2 ^ ((fExp t w : ℤ) - fBias t - (fFracBits t + 1)) := by
      rw [valueOf_num (fValue_of_exp he), abs_value, Int.natAbs_mul]
      have unit : (if fSign t w then -1 else 1 : ℤ).natAbs = 1 := by split <;> rfl
      rw [unit, one_mul]
      rfl
    have reaches := sig.exponent_gt_iff (fExp t w) (fMaxExp t)
    have leaves := sig.exponent_gt_iff (fExp t w) 0
    rw [← magnitude, noCarry, add_zero] at reaches leaves
    rw [zero_sub] at leaves
    have top := fExp_le t w
    exact ⟨not_le.1 fun le => absurd (reaches.2 le) (by omega), fun _ => leaves.1 (by omega)⟩

/-- A number whose significand fits a format's precision, and whose exponent its field, is the value of a datum. -/
theorem exists_datum (t : FType) (neg : Bool) {n : Nat} {k : ℤ} (hn : 0 < n) (fits : n < 2 ^ (fFracBits t + 1))
    (low : 0 ≤ k + Nat.log2 n + fBias t) (high : k + Nat.log2 n + fBias t < fMaxExp t) :
    ∃ w, ¬ ReservedBits t w ∧ valueOf t w = (if neg then -1 else 1) * (n * (2 : ℚ) ^ k) := by
  obtain ⟨e, he⟩ := Int.eq_ofNat_of_zero_le low
  have le : Nat.log2 n ≤ fFracBits t := Nat.lt_succ_iff.1 ((Nat.log2_lt hn.ne').2 fits)
  have scale : 2 ^ fFracBits t = 2 ^ Nat.log2 n * 2 ^ (fFracBits t - Nat.log2 n) := by rw [← pow_add]; congr 1; omega
  have leading : 2 ^ fFracBits t ≤ n * 2 ^ (fFracBits t - Nat.log2 n) := by
    rw [scale]; exact Nat.mul_le_mul_right _ (Nat.log2_self_le hn.ne')
  have below : n * 2 ^ (fFracBits t - Nat.log2 n) < 2 ^ fFracBits t * 2 := by
    calc n * 2 ^ (fFracBits t - Nat.log2 n) < 2 ^ (Nat.log2 n + 1) * 2 ^ (fFracBits t - Nat.log2 n) :=
          Nat.mul_lt_mul_of_pos_right Nat.lt_log2_self (by positivity)
      _ = 2 ^ fFracBits t * 2 := by rw [scale, pow_succ]; ring
  obtain ⟨unreserved, value⟩ := valueOf_fPack (t := t) (s := neg) (e := e + 1)
    (m := n * 2 ^ (fFracBits t - Nat.log2 n) - 2 ^ fFracBits t) (by omega) (by omega) (by omega)
  refine ⟨_, unreserved, value.trans (congrArg _ ?_)⟩
  rw [Nat.cast_sub leading]
  push_cast
  rw [add_sub_cancel, mul_assoc, ← zpow_natCast, ← zpow_add₀ two_ne_zero]
  congr 2
  omega

/-! ### Rounding a datum's value -/

/-- Rounding the value of a datum gives that value (R45). -/
theorem RoundedTo.keeps_value {t : FType} {r : ℚ} {x : FPResult t.dtype.width} (h : RoundedTo t r x)
    {w : BitVec t.dtype.width} (hw : ¬ ReservedBits t w) (value : valueOf t w = r) :
    ∃ v, x = .value v ∧ valueOf t v = r := by
  obtain ⟨small, large⟩ := abs_valueOf_bounds hw
  rw [value] at small large
  cases x with
  | value v =>
    obtain ⟨-, -, -, -, nearest⟩ := h
    have zero : |r - valueOf t v| = 0 := by
      have := nearest w hw
      rw [value, sub_self, abs_zero] at this
      rcases this with lt | ⟨eq, -⟩
      · exact absurd lt (not_lt.2 (abs_nonneg _))
      · exact eq
    exact ⟨v, rfl, (sub_eq_zero.1 (abs_eq_zero.1 zero)).symm⟩
  | overflow => exact absurd h (not_le.2 small)
  | underflow => exact absurd h.2 (not_lt.2 (large h.1))
  | reservedOperand | divideByZero => exact h.elim

/-- An integer times a power of two converts to a format without rounding when a datum of it has that value. -/
theorem toCvt_fRoundInt_exact {t : FType} {m k : ℤ} {w : BitVec t.dtype.width} (hw : ¬ ReservedBits t w)
    (value : valueOf t w = m * 2 ^ k) : ∃ v, toCvt (fRoundInt t m k) = .value v ∧ valueOf t v = m * 2 ^ k := by
  obtain ⟨v, answer, same⟩ := (fRoundInt_rounded t m k).keeps_value hw value
  exact ⟨v, by rw [answer]; rfl, same⟩

/-! ### Exact conversions -/

/-- Every longword is the value of a datum in a format with 32 bits of precision and an exponent range for them. -/
theorem exists_datum_toInt {t : FType} (precise : 32 ≤ fFracBits t) (range : 32 + fBias t ≤ fMaxExp t) (x : Longword) :
    ∃ w, ¬ ReservedBits t w ∧ valueOf t w = x.toInt := by
  rcases eq_or_ne x.toInt 0 with zero | nonzero
  · exact ⟨0, zero_not_reserved t, by rw [valueOf_zero, zero, Int.cast_zero]⟩
  have pos : 0 < x.toInt.natAbs := Int.natAbs_pos.2 nonzero
  have bound : x.toInt.natAbs < 2 ^ 32 := by
    have low := BitVec.le_toInt x
    have high := BitVec.toInt_lt (x := x)
    omega
  have digits : Nat.log2 x.toInt.natAbs < 32 := (Nat.log2_lt pos.ne').2 bound
  obtain ⟨w, hw, value⟩ := exists_datum t (decide (x.toInt < 0)) (k := 0) pos
    (bound.trans_le (Nat.pow_le_pow_right two_pos (by omega))) (by omega) (by omega)
  exact ⟨w, hw, by rw [value, zpow_zero, mul_one, ← cast_eq_sign_mul_natAbs]⟩

/-- Every number of a format is the value of a datum in a format with no less precision and range. -/
theorem exists_datum_valueOf {t u : FType} (precise : fFracBits t ≤ fFracBits u) (below : fBias t ≤ fBias u)
    (above : fMaxExp t + fBias u ≤ fMaxExp u + fBias t) {x : BitVec t.dtype.width} (h : ¬ ReservedBits t x) :
    ∃ w, ¬ ReservedBits u w ∧ valueOf u w = valueOf t x := by
  by_cases he : fExp t x = 0
  · exact ⟨0, zero_not_reserved u, by rw [valueOf_zero, valueOf_of_exp_zero h he]⟩
  have frac := fFrac_lt t x
  have top := fExp_le t x
  have fits : 2 ^ fFracBits t + fFrac t x < 2 ^ (fFracBits t + 1) := by rw [pow_succ]; omega
  have digits : Nat.log2 (2 ^ fFracBits t + fFrac t x) = fFracBits t :=
    (Nat.log2_eq_iff (by positivity)).2 ⟨Nat.le_add_right _ _, fits⟩
  obtain ⟨w, hw, value⟩ := exists_datum u (fSign t x) (n := 2 ^ fFracBits t + fFrac t x)
    (k := (fExp t x : ℤ) - fBias t - (fFracBits t + 1)) (by positivity)
    (fits.trans_le (Nat.pow_le_pow_right two_pos (by omega))) (by rw [digits]; omega) (by rw [digits]; omega)
  refine ⟨w, hw, ?_⟩
  rw [value, valueOf_num (fValue_of_exp he)]
  cases fSign t x <;> push_cast <;> ring

/-- A longword converts exactly to a format that has its value. -/
theorem fRoundInt_toInt_exact {t : FType} (precise : 32 ≤ fFracBits t) (range : 32 + fBias t ≤ fMaxExp t) (x : Longword) :
    ∃ v, toCvt (fRoundInt t x.toInt 0) = .value v ∧ valueOf t v = x.toInt := by
  obtain ⟨w, hw, value⟩ := exists_datum_toInt precise range x
  have converted := toCvt_fRoundInt_exact (m := x.toInt) (k := 0) hw (by rw [value, zpow_zero, mul_one])
  rwa [zpow_zero, mul_one] at converted

/-- A floating datum converts exactly to a format with no less precision and range. -/
theorem fToFloat_exact {t u : FType} (precise : fFracBits t ≤ fFracBits u) (below : fBias t ≤ fBias u)
    (above : fMaxExp t + fBias u ≤ fMaxExp u + fBias t) {x : BitVec t.dtype.width} (h : ¬ ReservedBits t x) :
    ∃ v, fToFloat t u x = .value v ∧ valueOf u v = valueOf t x := by
  obtain ⟨w, hw, value⟩ := exists_datum_valueOf precise below above h
  obtain ⟨m, k, hv, -⟩ := fValue_of_not_reserved h
  rw [valueOf_num hv] at value ⊢
  simp only [fToFloat, hv]
  exact toCvt_fRoundInt_exact hw value

end Machine

open Machine

/-- Settles O35: behind its tests VVCVT is an element loop, which stores every answer that stops no element. -/
theorem convertOpcode : Obligations.ConvertOpcode := by
  unfold Obligations.ConvertOpcode
  intro s c f hz hf answer h
  exact vvcvt_completes hz hf h

/-- Settles O37: the loop raises the exception of the first answer that stores nothing. -/
theorem convertExceptionRaised : Obligations.ConvertExceptionRaised := by
  unfold Obligations.ConvertExceptionRaised
  intro s c f k e hz hf answer first he
  rw [exec_vvcvt hz hf]
  have ⟨_, stops, _⟩ := first
  refine registerLoop_raises_first first (fun i stored => ?_) (cvtRes_raised vaxFP f.dst stops he)
  rw [cvtRes_stored vaxFP f.dst stored]
  exact ElemRes.stores_datum ..

/-- Settles O38: each of the three codes is one for which the table of conversions has no row. -/
theorem reservedConversionRefused : Obligations.ReservedConversionRefused := by
  unfold Obligations.ReservedConversionRefused
  intro s c hz code
  exact exec_vvcvt_reserved hz (cvtFunc_eq_none code) s

/-- Settles O39: a datum of the destination has the value already, and rounding keeps the value of a datum. -/
theorem exactConversionsKeepValue : Obligations.ExactConversionsKeepValue := by
  unfold Obligations.ExactConversionsKeepValue
  exact ⟨fun x => ⟨fRoundInt_toInt_exact (t := .d) (by decide) (by decide) x,
      fRoundInt_toInt_exact (t := .g) (by decide) (by decide) x⟩,
    fun x h => ⟨fToFloat_exact (u := .d) (by decide) (by decide) (by decide) h,
      fToFloat_exact (u := .g) (by decide) (by decide) (by decide) h⟩⟩

end Sys2Proof
end

section
/-! The exceptions an instruction can raise: those of its family in the table of R402, each at a processed element, since the
loop of every family that can raise runs over the processed elements alone. -/

namespace Sys2Proof
namespace Machine

/-! ### Outcomes -/

/-- An exception, if there is one, is one of `may`, at a processed element (R402, R414). -/
def RaisesOnly (may : Exc → Bool) (c : Cntrl) (s : State) (out : Outcome) : Prop :=
  ∀ e k left, out = .fault (.raised e k left) → may e = true ∧ Processed c s k

/-- No exception of R402 (a fault of a scalar operand is none, R426). -/
def NeverRaises (out : Outcome) : Prop := ∀ e k left, out ≠ .fault (.raised e k left)

theorem checkedMbz_raisesOnly {may : Exc → Bool} {mask c : Cntrl} {s : State} {body : Outcome}
    (h : RaisesOnly may c s body) : RaisesOnly may c s (checkedMbz mask c body) := by
  unfold checkedMbz
  split
  · exact h
  · exact nofun

theorem checkedCmp_raisesOnly {may : Exc → Bool} {mask c : Cntrl} {s : State} {body : Rel → Outcome}
    (h : ∀ rel, RaisesOnly may c s (body rel)) : RaisesOnly may c s (checkedCmp mask c body) := by
  refine checkedMbz_raisesOnly ?_
  split
  · exact nofun
  split
  · exact nofun
  · exact h _

/-! ### Loops -/

/-- The exception of a register loop is that of a processed element's result. -/
theorem registerLoop_raisesOnly {may : Exc → Bool} {c : Cntrl} {s : State} {vc : VReg}
    {f : ElemIx → (VReg → Element) → ElemRes} (h : ∀ i x e, f i x = .raise e → may e = true) :
    RaisesOnly may c s (registerLoop (enabled c s) vc f s) := by
  intro e k left out
  rcases registerLoop_cases (enabled c s) vc f s with ⟨t, ht, -⟩ | ⟨k', e', left', hk, en, fk, -, ht⟩ | ⟨k', r, -, -, -, -, ht⟩
    <;> rw [ht] at out <;> cases out
  exact ⟨h _ _ _ fk, (processed_iff c s k).2 ⟨hk, en⟩⟩

theorem compareLoop_raisesOnly {may : Exc → Bool} {c : Cntrl} {s : State} {f : (VReg → Element) → CmpRes}
    (h : ∀ x e, f x = .raise e → may e = true) : RaisesOnly may c s (compareLoop (enabled c s) f s) := by
  intro e k left out
  rcases compareLoop_cases (enabled c s) f s with ⟨t, ht, -⟩ | ⟨k', e', left', hk, en, fk, -, ht⟩
    <;> rw [ht] at out <;> cases out
  exact ⟨h _ _ fk, (processed_iff c s k).2 ⟨hk, en⟩⟩

theorem storeLoop_raisesOnly {may : Exc → Bool} {c : Cntrl} {s : State} {w : MemWidth} {addr : ElemIx → Address}
    {vc : VReg} (h : ∀ a e, checkStore s a w.bytes = .raise e → may e = true) :
    RaisesOnly may c s (storeLoop (enabled c s) w addr vc s) := by
  intro e k left out
  rcases storeLoop_cases (enabled c s) w addr vc s with ⟨t, ht, -⟩ | ⟨k', e', left', hk, en, fk, -, ht⟩ | ⟨k', r, -, -, -, -, ht⟩
    <;> rw [ht] at out <;> cases out
  exact ⟨h _ _ fk, (processed_iff c s k).2 ⟨hk, en⟩⟩

/-- VMERGE's loop, over elements that need not be processed, raises nothing (R340). -/
theorem registerLoop_raisesOnly_of_stores {may : Exc → Bool} {c : Cntrl} {s : State} {sel : ElemIx → Bool} {vc : VReg}
    {f : ElemIx → (VReg → Element) → ElemRes} (h : ∀ i x, (f i x).Stores) :
    RaisesOnly may c s (registerLoop sel vc f s) := by
  obtain ⟨t, ht, -⟩ := registerLoop_completes (sel := sel) (vc := vc) (s := s) fun i _ _ => h i fun n => s.elem n i
  rw [ht]
  exact nofun

/-! ### One element's exceptions -/

theorem datum_ne_raise (ty : DType) (x : BitVec ty.width) (e : Exc) : ElemRes.datum ty x ≠ .raise e := by
  cases ty <;> exact nofun

section
variable {i : Instr} {c : Cntrl} {e : Exc}

/-- Floating arithmetic raises what the table lists for it, divide by zero only in a division (R402, R404 to R408). -/
theorem mayRaise_of_floatRes {op : FOp} {scalar : Bool} {ty : FType} {x y : BitVec ty.dtype.width}
    (hk : i.kind = .floatArith op scalar) (hc : i.cntrl = some c)
    (h : floatRes vaxFP ty c.exc (vaxFP.op op ty x y) = .raise e) : mayRaise i e = true := by
  simp only [mayRaise, hk, hc]
  cases answer : vaxFP.op op ty x y with
  | value v =>
    rw [answer] at h
    exact absurd h (datum_ne_raise _ v e)
  | reservedOperand | overflow =>
    rw [answer] at h
    cases h
    rfl
  | divideByZero =>
    have division : op = .div := ((fArith_divideByZero_iff op ty x y).1 answer).1
    rw [answer] at h
    cases h
    exact beq_iff_eq.2 division
  | underflow =>
    rw [answer, floatRes] at h
    split at h
    · next on =>
      cases h
      exact on
    · exact absurd h (datum_ne_raise _ _ e)

/-- Integer arithmetic raises integer overflow when it is enabled (R402, R404, R409). -/
theorem mayRaise_of_intElem {op : IOp} {scalar : Bool} {x y : Longword} (hk : i.kind = .intArith scalar)
    (hc : i.cntrl = some c) (h : intElem op c.exc x y = .raise e) : mayRaise i e = true := by
  simp only [mayRaise, hk, hc]
  rw [intElem] at h
  split at h
  · next on =>
    cases h
    exact (Bool.and_eq_true_iff.1 on).1
  · cases h

/-- A conversion raises what the table lists for it (R402, R404 to R407, R409). -/
theorem mayRaise_of_cvtRes {ty : DType} {answer : CvtResult ty.width} (hk : i.kind = .convert) (hc : i.cntrl = some c)
    (h : cvtRes vaxFP ty c.exc answer = .raise e) : mayRaise i e = true := by
  simp only [mayRaise, hk, hc]
  cases answer with
  | value v => exact absurd h (datum_ne_raise _ v e)
  | reservedOperand | overflow =>
    cases h
    rfl
  | underflow | integerOverflow =>
    rw [cvtRes] at h
    split at h
    · next on =>
      cases h
      exact on
    · exact absurd h (datum_ne_raise _ _ e)

/-- A floating compare raises floating reserved operand alone (R402, R407). -/
theorem mayRaise_of_floatCmp {scalar : Bool} {ty : FType} {rel : Rel} {x y : BitVec ty.dtype.width}
    (hk : i.kind = .floatCompare scalar) (h : floatCmp vaxFP ty rel x y = .raise e) : mayRaise i e = true := by
  rw [floatCmp] at h
  split at h <;> cases h
  simp only [mayRaise, hk]

/-- A load or gather raises what the tests of its access raise (R309, R402). -/
theorem mayRaise_of_loadElem {s : State} {w : MemWidth} {mi : Bool} {a : Address} (hk : i.kind = .load ∨ i.kind = .gather)
    (h : loadElem s w mi a = .raise e) : mayRaise i e = true := by
  have check : checkLoad s a w.bytes mi = .raise e := by
    unfold loadElem at h
    split at h
    · next raised =>
      cases h
      exact raised
    · cases h
    · cases w <;> cases h
  rcases hk with hk | hk <;> rcases checkLoad_raise check with rfl | rfl | rfl <;> simp only [mayRaise, hk]

/-- A store or scatter raises what the tests of its access raise (R309, R402). -/
theorem mayRaise_of_checkStore {s : State} {a : Address} {n : Nat} (hk : i.kind = .store ∨ i.kind = .scatter)
    (h : checkStore s a n = .raise e) : mayRaise i e = true := by
  rcases hk with hk | hk <;> rcases checkStore_raise h with rfl | rfl | rfl | rfl <;> simp only [mayRaise, hk]

end

/-! ### VVCVT and the control register moves -/

theorem convert_raisesOnly {i : Instr} {c : Cntrl} (hk : i.kind = .convert) (hc : i.cntrl = some c) (s : State) :
    RaisesOnly (mayRaise i) c s (convert vaxFP c s) := by
  refine checkedMbz_raisesOnly ?_
  split
  · exact nofun
  · exact registerLoop_raisesOnly fun _ _ _ => mayRaise_of_cvtRes hk hc

theorem writeDest_neverRaises (s : State) (d : Dest) (x : Longword) : NeverRaises (writeDest s d x) := by
  rcases writeDest_cases s d x with ⟨n, -, h⟩ | ⟨a, -, ⟨-, h⟩ | ⟨-, -, h⟩ | ⟨-, -, h⟩ | ⟨-, -, h⟩⟩ <;> rw [h] <;> exact nofun

/-- MFVP, MTVP and VSYNC raise none of the nine exceptions (R402). -/
theorem control_neverRaises {i : Instr} (hk : i.kind = .control) (s : State) : NeverRaises (exec i s) := by
  rw [← exec_lower]
  rcases control_lower i hk with ⟨n, d, hi⟩ | ⟨n, x, hi⟩ | ⟨n, hi⟩ <;> rw [hi]
  · show NeverRaises (moveFrom n d s)
    rcases moveFrom_cases n d s with ⟨-, u, x, h⟩ | ⟨-, h⟩ <;> rw [h]
    · exact writeDest_neverRaises u d x
    · exact nofun
  · show NeverRaises (moveTo n x s)
    rcases moveTo_cases n x s with ⟨-, t, h⟩ | ⟨-, r, h, -⟩ <;> rw [h] <;> exact nofun
  · show NeverRaises (synchronize n s)
    unfold synchronize
    split <;> exact nofun

/-! ### Every instruction -/

/-- An instruction with a control word raises only what the table of R402 lists for it, at processed elements: its loop's
elements raise no more, and the loop of VMERGE and IOTA raises nothing. -/
theorem exec_raisesOnly {i : Instr} {c : Cntrl} (hc : i.cntrl = some c) (s : State) :
    RaisesOnly (mayRaise i) c s (exec i s) := by
  cases i with
  | mfvp | mtvp | vsync | mfvcr | mfvlr | mfvmrlo | mfvmrhi | synch | msynch | mtvcr | mtvlr | mtvmrlo | mtvmrhi
  | vsynch => cases hc
  | vvaddf | vvaddd | vvaddg | vvsubf | vvsubd | vvsubg | vvmulf | vvmuld | vvmulg | vvdivf | vvdivd | vvdivg
  | vsaddf | vsaddd | vsaddg | vssubf | vssubd | vssubg | vsmulf | vsmuld | vsmulg | vsdivf | vsdivd | vsdivg =>
    cases hc
    exact checkedMbz_raisesOnly (registerLoop_raisesOnly fun _ _ _ => mayRaise_of_floatRes rfl rfl)
  | vvaddl | vvsubl | vvmull | vsaddl | vssubl | vsmull =>
    cases hc
    exact checkedMbz_raisesOnly (registerLoop_raisesOnly fun _ _ _ => mayRaise_of_intElem rfl rfl)
  | vvbisl | vvxorl | vvbicl | vsbisl | vsxorl | vsbicl | vvsrll | vvslll | vssrll | vsslll
  | vvmerge | vsmerge | vsmergef | vsmerged | vsmergeg =>
    cases hc
    exact checkedMbz_raisesOnly (registerLoop_raisesOnly_of_stores fun _ _ => trivial)
  | vldl | vldq =>
    cases hc
    exact checkedMbz_raisesOnly (registerLoop_raisesOnly fun _ _ _ => mayRaise_of_loadElem (.inl rfl))
  | vgathl | vgathq =>
    cases hc
    exact checkedMbz_raisesOnly (registerLoop_raisesOnly fun _ _ _ => mayRaise_of_loadElem (.inr rfl))
  | vstl | vstq =>
    cases hc
    exact checkedMbz_raisesOnly (storeLoop_raisesOnly fun _ _ => mayRaise_of_checkStore (.inl rfl))
  | vscatl | vscatq =>
    cases hc
    exact checkedMbz_raisesOnly (storeLoop_raisesOnly fun _ _ => mayRaise_of_checkStore (.inr rfl))
  | iota =>
    cases hc
    exact checkedMbz_raisesOnly nofun
  | vvcvt | vvcvtlf | vvcvtld | vvcvtlg | vvcvtfl | vvcvtrfl | vvcvtfd | vvcvtfg | vvcvtdl | vvcvtdf | vvcvtrdl
  | vvcvtgl | vvcvtgf | vvcvtrgl =>
    cases hc
    exact convert_raisesOnly rfl rfl s
  | vvcmpl | vscmpl
  | vvgtrl | vveqll | vvlssl | vvleql | vvneql | vvgeql | vsgtrl | vseqll | vslssl | vsleql | vsneql | vsgeql =>
    cases hc
    exact checkedCmp_raisesOnly fun _ => compareLoop_raisesOnly nofun
  | _ =>
    cases hc
    exact checkedCmp_raisesOnly fun _ => compareLoop_raisesOnly fun _ _ => mayRaise_of_floatCmp rfl

end Machine

open Machine

/-- Settles O50: the control register moves raise nothing, and every other instruction is a loop whose exceptions are those of
its processed elements. -/
theorem exceptionsOfInstructions : Obligations.ExceptionsOfInstructions := by
  unfold Obligations.ExceptionsOfInstructions
  intro i s e k left raised
  by_cases hk : i.kind = .control
  · exact absurd raised (control_neverRaises hk s e k left)
  · obtain ⟨c, hc, -⟩ := exec_loop i s hk
    obtain ⟨listed, processed⟩ := exec_raisesOnly hc s e k left raised
    exact ⟨listed, c, hc, processed⟩

end Sys2Proof
end
